-- ==== Sys2Proof/Word.lean ====
section
/-! DEFINITION. The word and number types of the GS8256: the 32-bit word of the bus window, and the
numbers the manual names (initiators, claim records, tickets, tags, generations, granules). -/

namespace Sys2Proof

/-- A word of the bus window is 32 bits (conventions of `00_scope.md`, R149). -/
abbrev Word := BitVec 32

/-- An initiator number, 0 to 7 (R70). -/
abbrev Initiator := Fin 8

/-- A claim number, 0 to 255: the position of a record in the claim table (R4). -/
abbrev ClaimNo := Fin 256

/-- A ticket number (R65): 1 to 65,535.  The value 0 is never issued. -/
abbrev Ticket := BitVec 16

/-- A tag given by software with a CLAIM (R26): 16 bits that the part does not interpret. -/
abbrev Tag := BitVec 16

/-- A granule number as the check port carries it, QGRAN[19:0] (R118, signal summary). -/
abbrev Granule := BitVec 20

end Sys2Proof
end

