-- ==== Sys2Proof/Config.lean ====
section
/-! DEFINITION. What stands outside the state and is fixed for the machine.  The manual leaves no value
free, so there is no opaque constant here; the configuration registers are state (`ConfigRegs`), because
managers write them.  What this file fixes is the level of the strap pins that `State.reset` latches. -/

namespace Sys2Proof.Config

/-- DESIGN CHOICE (log entry 1, unsafe): the level of the PRES[1:0] strap pins at the release of RESETn
that `State.reset` stands for.  The manual lets the board choose it (R178); 00 gives two initiators. -/
def strapPres : BitVec 2 := 0

/-- DESIGN CHOICE (log entry 1, unsafe): the level of the AUTOON strap pin for `State.reset` (R178). -/
def strapAutoon : Bool := false

/-- DESIGN CHOICE (log entry 1, unsafe): the level of the MGRALL strap pin for `State.reset` (R178). -/
def strapMgrall : Bool := false

end Sys2Proof.Config
end

