-- ==== Sys2Proof/Syntax.lean ====
section
/-! DEFINITION. The commands of the block: one constructor for each row of `spec/opcode_table.json`, with
the operands that come from outside the part when the step happens.

A request (CLAIM, RELEASE, ENABLE ...) carries no operand: its operands stand in the request words that a
SUBMISSION captured (R153), and the mailbox it is taken from is the one the arbiter chooses (R155), so the
command says only that a request of this kind is taken.  A bus access carries the initiator number
INIT[2:0] and the data D[31:0]; a check query its three fields; a fence answer its kind code. -/

namespace Sys2Proof

/-- The nine mailboxes (R149): the management mailbox and one mailbox for each initiator. -/
inductive MailboxId where
  | management
  | initiator (i : Initiator)
  deriving DecidableEq, Repr

/-- The kind of an access named in a check query (R118). -/
inductive AccessKind where
  | read
  | write
  deriving DecidableEq, Repr

/-- The configuration registers at 040h to 05Ch (R173). -/
inductive ConfigReg where
  | tickPeriod
  | leaseLength
  | fenceLimit
  | claimLimit
  | guardLimit
  | unclaimedWrite
  | readThrough
  | managerSet
  deriving DecidableEq, Repr

/-- The commands: the rows of the table of operations and events. -/
inductive Instr where
  /-- REGISTER taken from an initiator mailbox (R74, R75). -/
  | register
  /-- UNREGISTER taken from an initiator mailbox (R77, R78). -/
  | unregister
  /-- RENEW taken from an initiator mailbox (R76). -/
  | renew
  /-- CLAIM taken from an initiator mailbox (R27). -/
  | claim
  /-- UPGRADE taken from an initiator mailbox (R35). -/
  | upgrade
  /-- DOWNGRADE taken from an initiator mailbox (R38). -/
  | downgrade
  /-- RELEASE taken from an initiator mailbox (R39). -/
  | release
  /-- CANCEL taken from an initiator mailbox (R59). -/
  | cancel
  /-- TAKE-NOTICE taken from an initiator mailbox (R69). -/
  | takeNotice
  /-- LOOKUP taken from an initiator mailbox (R138). -/
  | lookup
  /-- A request of an undefined kind, or of the other class, taken from any mailbox (R152, R20). -/
  | undefinedRequestKind
  /-- ENABLE taken from the management mailbox (R167). -/
  | enable
  /-- DISABLE taken from the management mailbox (R168). -/
  | disable
  /-- DORMANT taken from the management mailbox (R170). -/
  | dormant
  /-- EVICT taken from the management mailbox (R84). -/
  | evict
  /-- CLEAR-QUARANTINE taken from the management mailbox (R114). -/
  | clearQuarantine
  /-- CLEAR-CAPTURE taken from the management mailbox (R135). -/
  | clearCapture
  /-- INSPECT-CLAIM taken from the management mailbox (R143). -/
  | inspectClaim
  /-- INSPECT-INITIATOR taken from the management mailbox (R144). -/
  | inspectInitiator
  /-- INSPECT-WAITER taken from the management mailbox (R146). -/
  | inspectWaiter
  /-- Initiator `who` writes word 0 of mailbox `m` with START written as 1 (R153, R154). -/
  | submission (who : Initiator) (m : MailboxId) (data : Word)
  /-- Initiator `who` writes the attention enables in word 0 of mailbox `m`, START written as 0 (R153). -/
  | attentionEnableWrite (who : Initiator) (m : MailboxId) (data : Word)
  /-- Initiator `who` writes 1 to DONE, ERROR or OVR in word 0 of mailbox `m`, START written as 0 (R153). -/
  | flagClear (who : Initiator) (m : MailboxId) (data : Word)
  /-- Initiator `who` writes `data` at the word offset `addr` = A[9:2] of the window (R149). -/
  | windowWrite (who : Initiator) (addr : BitVec 8) (data : Word)
  /-- Initiator `who` reads word 0 of the management mailbox (R161). -/
  | takeOwnership (who : Initiator)
  /-- The microsecond count reaches the end of the ownership window (R162). -/
  | ownershipWindowEnd
  /-- Initiator `who` writes `data` to the configuration register `reg` (R173). -/
  | configWrite (who : Initiator) (reg : ConfigReg) (data : Word)
  /-- Initiator `who` writes 1 to bit 0 at 07Ch, the other bits as in `data` (R173, R174). -/
  | configRefusalClear (who : Initiator) (data : Word)
  /-- The memory controller presents a check query (R118, R120). -/
  | checkQuery (who : Initiator) (granule : Granule) (kind : AccessKind)
  /-- The fence unit issues a fence (R97). -/
  | fenceIssue
  /-- A DONE answer, FAKIND 0, arrives on the fence port (R101). -/
  | fenceDone
  /-- A DEFER answer, FAKIND 1, arrives on the fence port (R102). -/
  | fenceDefer
  /-- An answer with the kind code `code` (2 or 3) arrives on the fence port (R101). -/
  | fenceAnswerOtherKind (code : BitVec 2)
  /-- REFCLK runs until the tick countdown reaches 0 and the tick falls (R176, R177). -/
  | tick
  /-- The directory engine takes a delivered tick (R86). -/
  | directoryTick
  /-- The fence unit takes a delivered tick (R103). -/
  | fenceUnitTick
  /-- The fence unit takes the delivered tick that lowers the fence timer to 0 (R104). -/
  | fenceTimerExpiry
  /-- The directory engine takes the tick on which the waiter with this ticket expires (R57). -/
  | waitExpiry (ticket : Ticket)
  /-- The directory engine takes the tick on which initiator `i`'s lease reaches 0 (R81). -/
  | lapse (i : Initiator)
  /-- RESETn is released with the strap pins at these levels (R178, R179). -/
  | resetn (pres : BitVec 2) (autoon mgrall : Bool)
  /-- RESETn falls (R179). -/
  | resetnAsserted
  deriving DecidableEq, Repr

end Sys2Proof
end

