-- ==== Sys2Proof/WellFormed.lean ====
section
/-! DEFINITION. When a command is one that its row of the table can be.  Most operand bounds are in the
types (an initiator number is below 8, a granule number has 20 bits); what is left is checked here. -/

namespace Sys2Proof

/-- Word 0 of a mailbox, or an offset that has a row of its own: the management word 0, word 0 of an
initiator mailbox, and the registers at 040h to 05Ch.  A write there is a SUBMISSION, an
ATTENTION_ENABLE_WRITE, a FLAG_CLEAR or a CONFIG_WRITE, not a WINDOW_WRITE (the table's row WINDOW_WRITE:
"a window location with no behaviour of its own"). -/
def hasOwnRow (addr : BitVec 8) : Bool :=
  decide (addr.toNat = 0)
    || (decide (64 ≤ addr.toNat) && decide (addr.toNat < 192) && decide (addr.toNat % 16 = 0))
    || (decide (16 ≤ addr.toNat) && decide (addr.toNat < 24))

/-- The checks on a command's operands.
* SUBMISSION writes START as 1; ATTENTION_ENABLE_WRITE and FLAG_CLEAR write it as 0 (R153).
* FLAG_CLEAR writes 1 to at least one of DONE, ERROR and OVR (R153).
* WINDOW_WRITE goes to an offset without a row of its own (R149).
* CONFIG_REFUSAL_CLEAR writes bit 0 as 1 (R174).
* FENCE_ANSWER_OTHER_KIND carries the code 2 or 3 (R101).
* WAIT_EXPIRY names a ticket, and no ticket is 0 (R65). -/
def Instr.wellFormed : Instr → Bool
  | .submission _ _ data => data.getLsbD 0
  | .attentionEnableWrite _ _ data => !data.getLsbD 0
  | .flagClear _ _ data => !data.getLsbD 0 && (data.getLsbD 2 || data.getLsbD 3 || data.getLsbD 4)
  | .windowWrite _ addr _ => !hasOwnRow addr
  | .configRefusalClear _ data => data.getLsbD 0
  | .fenceAnswerOtherKind code => decide (2 ≤ code.toNat)
  | .waitExpiry ticket => decide (ticket ≠ 0)
  | .register | .unregister | .renew | .claim | .upgrade | .downgrade | .release | .cancel
  | .takeNotice | .lookup | .undefinedRequestKind | .enable | .disable | .dormant | .evict
  | .clearQuarantine | .clearCapture | .inspectClaim | .inspectInitiator | .inspectWaiter
  | .takeOwnership _ | .ownershipWindowEnd | .configWrite _ _ _ | .checkQuery _ _ _
  | .fenceIssue | .fenceDone | .fenceDefer | .tick | .directoryTick | .fenceUnitTick
  | .fenceTimerExpiry | .lapse _ | .resetn _ _ _ | .resetnAsserted => true

end Sys2Proof
end

