-- ==== Sys2Proof/Decode.lean ====
section
/-! DEFINITION. The table of operations and events gives no row any bits (every row's "fields" is empty), so
no word spells a command.  The encoding the manual does give, the CLASS and KIND fields of a mailbox's
word 1 (R152), is read where a request is taken (`requestKind` in `Machine/Operands.lean`). -/

namespace Sys2Proof

/-- The command that a word spells by the table's bits: none, since no row of the table gives bits. -/
def decodeTableWord (_nbits _w : Nat) : Option Instr :=
  none

end Sys2Proof
end

