-- ==== Sys2Proof/Machine/State.lean ====
section
/-! DEFINITION. The state of the GS8256 as plain data, the reasons a step can stop (none that a command of
the table raises), and the state after reset.  A field that the manual calls absent in some states is held
so that it cannot stand where it is absent: a FREE record is not listed, a drain stage stands inside the
two draining phases, a lease inside ACTIVE, a fence timer inside TIMED. -/

namespace Sys2Proof.Machine

/-! ### Claim records (chapter 1) -/

/-- The mode of a claim (R4). -/
inductive Mode where
  | shared
  | exclusive
  deriving DecidableEq, Repr

/-- The drain stage (R4, R13). -/
inductive Stage where
  | pending
  | issued
  deriving DecidableEq, Repr

/-- The phases of a record that is not FREE (R4).  The drain stage is present only while draining. -/
inductive Phase where
  | held
  | drainingDown (stage : Stage)
  | drainingOut (stage : Stage)
  | quarantined
  deriving DecidableEq, Repr

/-- A span: a first granule and a count (R2).  Granule numbers are counted and compared, never masked, and
"the sum never wraps", so they are natural numbers. -/
structure Span where
  first : Nat
  count : Nat
  deriving DecidableEq, Repr

/-- The fields of a claim record that is not FREE (R4). -/
structure Claim where
  phase : Phase
  holder : Initiator
  mode : Mode
  span : Span
  tag : Tag
  /-- Present only while an UPGRADE waiter on this record is in the wait queue (R4, R8). -/
  upgradeTicket : Option Ticket
  deriving DecidableEq, Repr

/-- The claim table: the records that are not FREE with their claim numbers, in ascending order.  A claim
number that is not listed names a FREE record, whose fields are all absent (R4, R5). -/
abbrev Claims := List (ClaimNo × Claim)

/-! ### The wait queue and notices (chapter 3) -/

/-- The kind of a waiter, with the field that only that kind holds: the requested mode of a CLAIM, the
claim number of an UPGRADE (R47). -/
inductive WaiterKind where
  | claim (mode : Mode)
  | upgrade (record : ClaimNo)
  deriving DecidableEq, Repr

/-- A waiter (R47).  `remaining` is absent for an unlimited wait. -/
structure Waiter where
  ticket : Ticket
  initiator : Initiator
  kind : WaiterKind
  span : Span
  tag : Tag
  remaining : Option Nat
  deriving DecidableEq, Repr

/-- How a waiting request ended (R68).  The claim number is present for GRANTED only. -/
inductive NoticeOutcome where
  | granted (record : ClaimNo)
  | expired
  | withdrawn
  deriving DecidableEq, Repr

/-- A notice (R68). -/
structure Notice where
  ticket : Ticket
  outcome : NoticeOutcome
  tag : Tag
  deriving DecidableEq, Repr

/-! ### The initiator table (chapter 4) -/

/-- The state of an initiator (R70).  The lease remaining is present only in ACTIVE. -/
inductive InitState where
  | absent
  | unregistered
  | active (lease : Nat)
  | lapsed
  deriving DecidableEq, Repr

/-- The record of an initiator (R70). -/
structure InitRecord where
  state : InitState
  generation : BitVec 8
  notices : List Notice
  deriving DecidableEq, Repr

/-- The tables that one event of the directory engine changes together (R19): the claim table, the wait
queue, the initiator table with its notice lists, the ticket counter, and the fence queue, which the fence
unit holds and to which the engine appends in the event that makes a drain (R94). -/
structure Tables where
  claims : Claims
  /-- The wait queue, head first (R46). -/
  queue : List Waiter
  inits : Vector InitRecord 8
  /-- The ticket counter (R66). -/
  ticketCounter : Ticket
  /-- The fence queue, head first (R94). -/
  fenceQueue : List Initiator
  deriving DecidableEq, Repr

/-! ### The fence unit (chapter 5) -/

/-- The state of the fence unit with its in-flight fence record (R96). -/
inductive FenceFlight where
  | idle
  | timed (initiator : Initiator) (timer : Nat)
  | deferred (initiator : Initiator)
  deriving DecidableEq, Repr

/-! ### The check unit (chapter 6) -/

/-- The verdicts (R118). -/
inductive Verdict where
  | pass
  | retry
  | fault
  deriving DecidableEq, Repr

/-- The capture reasons, with the claim number where the capture names one record (R133). -/
inductive CaptureReason where
  | absent
  | lapsed
  | quarantine (record : ClaimNo)
  | released (record : ClaimNo)
  | downgraded (record : ClaimNo)
  | heldByOther (record : ClaimNo)
  | sharedWrite
  | unclaimedWrite
  deriving DecidableEq, Repr

/-- The violation capture record (R133). -/
structure Capture where
  initiator : Initiator
  granule : Granule
  kind : AccessKind
  reason : CaptureReason
  deriving DecidableEq, Repr

/-! ### Mailboxes (chapter 8) -/

/-- The request words 1 to 4 (R151). -/
structure RequestWords where
  w1 : Word
  w2 : Word
  w3 : Word
  w4 : Word
  deriving DecidableEq, Repr

/-- What all nine mailboxes hold (R151).  `captured` is the submission in progress: PHASE is BUSY while it
is present and IDLE while it is absent (R153, R156).  `result` holds words 6 to 15. -/
structure Mailbox where
  request : RequestWords
  captured : Option RequestWords
  done : Bool
  error : Bool
  ovr : Bool
  cmpe : Bool
  result : Vector Word 10
  deriving DecidableEq, Repr

/-- The ownership of the management mailbox (R161): the owner, the microsecond count at which its window
ends, and the submitted mark. -/
structure Ownership where
  manager : Initiator
  windowEnd : BitVec 32
  submitted : Bool
  deriving DecidableEq, Repr

/-- The answer to the last bus access (R150): an error response or a ready response, and the data of a
read.  `data` is none for a write, and for a read that the manual gives no data (log entry 9). -/
structure BusResponse where
  error : Bool
  data : Option Word
  deriving DecidableEq, Repr

/-! ### Directory control (chapter 9) -/

/-- The directory state (R166). -/
inductive DirState where
  | off
  | on
  | quiescing
  | dormant
  deriving DecidableEq, Repr

/-- The configuration registers (R173).  `unclaimedClosed` is the unclaimed-write policy, CLOSED when
true; `readThrough` is ON when true. -/
structure ConfigRegs where
  tickPeriod : Nat
  leaseLength : Nat
  fenceLimit : Nat
  claimLimit : Nat
  guardLimit : Nat
  unclaimedClosed : Bool
  readThrough : Bool
  managerSet : BitVec 8
  deriving DecidableEq, Repr

/-- The present count latched from PRES (R178). -/
inductive PresentCount where
  | two
  | four
  | eight
  deriving DecidableEq, Repr

/-- The latched strap values (R178). -/
structure Straps where
  present : PresentCount
  autoon : Bool
  mgrall : Bool
  deriving DecidableEq, Repr

/-! ### The state -/

/-- The state of the part, by block, and the queue of commands that are waiting. -/
structure State where
  /-- Initiator mailboxes 0 to 7 (R149). -/
  mailboxes : Vector Mailbox 8
  /-- The management mailbox (R149). -/
  mgmt : Mailbox
  /-- The notice-attention enables of the initiator mailboxes (R151). -/
  ntfe : Vector Bool 8
  /-- The capture-attention enable of the management mailbox (R151). -/
  cape : Bool
  /-- The quarantine-attention enable of the management mailbox (R151). -/
  qae : Bool
  /-- The submitting manager recorded for the BUSY management mailbox (R153). -/
  submitter : Option Initiator
  /-- The ownership of the management mailbox (R161). -/
  ownership : Option Ownership
  /-- The arbiter's pointer: the mailbox served last (R155). -/
  arbiter : MailboxId
  /-- The tables of the directory engine and the fence queue. -/
  tables : Tables
  /-- The in-flight fence (R96). -/
  flight : FenceFlight
  /-- A tick was delivered to the fence unit and is not taken yet (R177; log entry 6). -/
  fenceTick : Bool
  /-- That tick fell while an issue was due, which comes first (R97; log entry 6). -/
  fenceTickHeld : Bool
  /-- The violation capture (R133). -/
  capture : Option Capture
  /-- The overflow flag (R133). -/
  overflow : Bool
  /-- The verdict last driven with VVALID (R118; log entry 9). -/
  verdictOut : Option Verdict
  /-- The microsecond count (R175). -/
  usCount : BitVec 32
  /-- The tick countdown (R176). -/
  countdown : Nat
  /-- A tick was delivered to the directory engine and is not taken yet (R177; log entry 6). -/
  engineTick : Bool
  /-- The directory state (R166). -/
  dirState : DirState
  /-- The configuration registers (R173). -/
  config : ConfigRegs
  /-- The config-refusal flag (R173). -/
  configRefused : Bool
  /-- The latched straps (R178). -/
  straps : Straps
  /-- RESETn is low (R179). -/
  inReset : Bool
  /-- The response to the last bus access (R150; log entry 9). -/
  busOut : Option BusResponse
  /-- The commands that are waiting, first in, first out (the interface of a block; log entry 13). -/
  pending : List Instr
  deriving DecidableEq, Repr

/-- The reasons a step can stop with a fault.  There is none: the manual gives every step of its table an
effect, and what it calls FAULT, refusal or error is an effect in the state. -/
inductive Fault where
  deriving DecidableEq, Repr

/-- The reasons a step can be refused. -/
inductive Refusal where
  /-- Raised by an arm of `exec` for a command that has no meaning yet; no arm raises it.  Safe. -/
  | notModelled (mnemonic : String)
  deriving DecidableEq, Repr

/-- An IDLE mailbox with every word 0 (R164). -/
def Mailbox.reset : Mailbox where
  request := ⟨0, 0, 0, 0⟩
  captured := none
  done := false
  error := false
  ovr := false
  cmpe := false
  result := Vector.replicate 10 0

/-- The machine right after reset (R179), with every strap pin low (log entry 1): two initiators present,
the directory OFF, initiator 0 the only manager. -/
def State.reset : State where
  mailboxes := Vector.replicate 8 Mailbox.reset
  mgmt := Mailbox.reset
  ntfe := Vector.replicate 8 false
  cape := false
  qae := false
  submitter := none
  ownership := none
  arbiter := .management
  tables := {
    claims := []
    queue := []
    inits := #v[⟨.unregistered, 0, []⟩, ⟨.unregistered, 0, []⟩, ⟨.absent, 0, []⟩, ⟨.absent, 0, []⟩,
      ⟨.absent, 0, []⟩, ⟨.absent, 0, []⟩, ⟨.absent, 0, []⟩, ⟨.absent, 0, []⟩]
    ticketCounter := 1
    fenceQueue := [] }
  flight := .idle
  fenceTick := false
  fenceTickHeld := false
  capture := none
  overflow := false
  verdictOut := none
  usCount := 0
  countdown := 1000
  engineTick := false
  dirState := .off
  config := {
    tickPeriod := 1000
    leaseLength := 1000
    fenceLimit := 50
    claimLimit := 32
    guardLimit := 1048575
    unclaimedClosed := false
    readThrough := false
    managerSet := 0x01 }
  configRefused := false
  straps := ⟨.two, Config.strapAutoon, Config.strapMgrall⟩
  inReset := false
  busOut := none
  pending := []

end Sys2Proof.Machine
end

