-- ==== Sys2Proof/Machine/Operands.lean ====
section
/-! DEFINITION. Everything about bits: fields of a word, the request words and their operands, the codes
that software reads, and the words of a result.  The tables are not read here. -/

namespace Sys2Proof.Machine

/-! ### Fields of a word -/

/-- The value of the `width` bits of `w` from bit `lo` up. -/
def bitField (lo width : Nat) (w : Word) : Nat :=
  (w.extractLsb' lo width).toNat

/-- A word whose `width` bits from bit `lo` up hold `v`, the others 0. -/
def place (lo width v : Nat) : Word :=
  (BitVec.ofNat width v).setWidth 32 <<< lo

/-- A word whose bit `lo` is 1 when `b` holds, the others 0. -/
def placeBit (lo : Nat) (b : Bool) : Word :=
  place lo 1 b.toNat

/-! ### Spans (R2, R3) -/

/-- The highest granule number (R1). -/
def granuleTop : Nat := 1048575

/-- The greatest count of a span (R2). -/
def spanMax : Nat := 65536

/-- The last granule: the first granule plus the count minus one (R2). -/
def Span.last (s : Span) : Nat :=
  s.first + s.count - 1

/-- The span is legal under a guard limit (R2, R28). -/
def Span.legal (s : Span) (guardLimit : Nat) : Bool :=
  decide (s.first ≤ granuleTop) && decide (1 ≤ s.count) && decide (s.count ≤ spanMax)
    && decide (s.last ≤ guardLimit)

/-- Two spans share a granule (R3). -/
def Span.overlaps (a b : Span) : Bool :=
  decide (a.first ≤ b.last) && decide (b.first ≤ a.last)

/-- The granule lies in the span: the overlap test against the span of that one granule (R3). -/
def Span.holds (s : Span) (granule : Nat) : Bool :=
  s.overlaps ⟨granule, 1⟩

/-! ### The request kind (R152) -/

/-- The kinds a captured request can have in its mailbox; `undefined` covers every pair of CLASS and KIND
that is not in the table of R152 or belongs to the other class of mailbox. -/
inductive RequestKind where
  | register
  | unregister
  | renew
  | claim
  | upgrade
  | downgrade
  | release
  | cancel
  | takeNotice
  | lookup
  | enable
  | disable
  | dormant
  | evict
  | clearQuarantine
  | clearCapture
  | inspectClaim
  | inspectInitiator
  | inspectWaiter
  | undefined
  deriving DecidableEq, Repr

/-- KIND within CLASS 0 (R152). -/
def initiatorKind : Nat → RequestKind
  | 1 => .register
  | 2 => .unregister
  | 3 => .renew
  | 4 => .claim
  | 5 => .upgrade
  | 6 => .downgrade
  | 7 => .release
  | 8 => .cancel
  | 9 => .takeNotice
  | 10 => .lookup
  | _ => .undefined

/-- KIND within CLASS 1 (R152). -/
def managementKind : Nat → RequestKind
  | 1 => .enable
  | 2 => .disable
  | 3 => .dormant
  | 4 => .evict
  | 5 => .clearQuarantine
  | 6 => .clearCapture
  | 7 => .inspectClaim
  | 8 => .inspectInitiator
  | 9 => .inspectWaiter
  | _ => .undefined

/-- The kind of the request whose word 1 is `w1`, taken from mailbox `m` (R20, R152). -/
def requestKind (m : MailboxId) (w1 : Word) : RequestKind :=
  match m, bitField 4 1 w1 with
  | .initiator _, 0 => initiatorKind (bitField 0 4 w1)
  | .management, 1 => managementKind (bitField 0 4 w1)
  | _, _ => .undefined

/-! ### Operands of the request words (R151) -/

/-- What a write of `data` leaves in word 1: KIND 3:0, CLASS 4 and MODE 9:8; other bits read 0 (R151). -/
def maskWord1 (data : Word) : Word :=
  data &&& 0x0000031F

/-- The MODE field of word 1; the codes 2 and 3 are malformed (R22, R151). -/
def modeOperand (w : RequestWords) : Option Mode :=
  match bitField 8 2 w.w1 with
  | 0 => some .shared
  | 1 => some .exclusive
  | _ => none

/-- The span of a CLAIM: first granule in word 2, count in word 3 (R151). -/
def claimSpan (w : RequestWords) : Span :=
  ⟨w.w2.toNat, w.w3.toNat⟩

/-- The tag of a CLAIM, word 4 bits 15:0 (R151). -/
def tagOperand (w : RequestWords) : Tag :=
  w.w4.extractLsb' 0 16

/-- The wait limit of a CLAIM or UPGRADE, word 4 bits 31:16 (R151). -/
def waitLimit (w : RequestWords) : Nat :=
  bitField 16 16 w.w4

/-- The wait remaining that a queued waiter starts with: the wait limit, and absent for 65,535 (R56). -/
def startRemaining (limit : Nat) : Option Nat :=
  if limit = 65535 then none else some limit

/-- A claim number in word 2; none above 255 (R22, R114, R143). -/
def claimOperand (w : RequestWords) : Option ClaimNo :=
  if h : w.w2.toNat < 256 then some ⟨w.w2.toNat, h⟩ else none

/-- An initiator number in word 2; none above 7 (R84, R144). -/
def initiatorOperand (w : RequestWords) : Option Initiator :=
  if h : w.w2.toNat < 8 then some ⟨w.w2.toNat, h⟩ else none

/-- A ticket in word 2; none above 65,535 (R59). -/
def ticketOperand (w : RequestWords) : Option Ticket :=
  if w.w2.toNat < 65536 then some (w.w2.setWidth 16) else none

/-- The span of a LOOKUP: first granule in word 2 bits 19:0, count in word 3 (R151). -/
def lookupSpan (w : RequestWords) : Span :=
  ⟨bitField 0 20 w.w2, w.w3.toNat⟩

/-- The cursor of a LOOKUP, word 2 bits 31:20 (R151). -/
def lookupCursor (w : RequestWords) : Nat :=
  bitField 20 12 w.w2

/-! ### Codes that software reads -/

/-- Mode code (R5). -/
def Mode.code : Mode → Nat
  | .shared => 0
  | .exclusive => 1

/-- Phase code of a record that is not FREE; FREE is 0 (R5). -/
def Phase.code : Phase → Nat
  | .held => 1
  | .drainingDown _ => 2
  | .drainingOut _ => 3
  | .quarantined => 4

/-- Drain-stage code; 0 where the stage is absent (R5). -/
def Phase.stageCode : Phase → Nat
  | .drainingDown .pending | .drainingOut .pending => 1
  | .drainingDown .issued | .drainingOut .issued => 2
  | .held | .quarantined => 0

/-- Initiator state code (R144, R151). -/
def InitState.code : InitState → Nat
  | .absent => 0
  | .unregistered => 1
  | .active _ => 2
  | .lapsed => 3

/-- The lease remaining, 0 where it is absent (R79, R144). -/
def InitState.leaseRemaining : InitState → Nat
  | .active lease => lease
  | .absent | .unregistered | .lapsed => 0

/-- Notice outcome code (R69). -/
def NoticeOutcome.code : NoticeOutcome → Nat
  | .granted _ => 1
  | .expired => 2
  | .withdrawn => 3

/-- The claim number of a notice, 0 where it is absent (R69). -/
def NoticeOutcome.claimNumber : NoticeOutcome → Nat
  | .granted n => n.val
  | .expired | .withdrawn => 0

/-- Access kind code (R118, R133). -/
def accessCode : AccessKind → Nat
  | .read => 0
  | .write => 1

/-- Capture reason code (R133). -/
def CaptureReason.code : CaptureReason → Nat
  | .absent => 1
  | .lapsed => 2
  | .quarantine _ => 3
  | .released _ => 4
  | .downgraded _ => 5
  | .heldByOther _ => 6
  | .sharedWrite => 7
  | .unclaimedWrite => 8

/-- The claim number of a capture, 0 where it is absent (R133). -/
def CaptureReason.claimNumber : CaptureReason → Nat
  | .quarantine n | .released n | .downgraded n | .heldByOther n => n.val
  | .absent | .lapsed | .sharedWrite | .unclaimedWrite => 0

/-- VERDICT[1:0] (R118). -/
def Verdict.code : Verdict → Nat
  | .pass => 0
  | .retry => 1
  | .fault => 2

/-- Directory state code (R166). -/
def DirState.code : DirState → Nat
  | .off => 0
  | .on => 1
  | .quiescing => 2
  | .dormant => 3

/-- Latched PRES as the status block shows it (R180). -/
def PresentCount.code : PresentCount → Nat
  | .two => 0
  | .four => 1
  | .eight => 2

/-- How many initiators are present (R178). -/
def PresentCount.count : PresentCount → Nat
  | .two => 2
  | .four => 4
  | .eight => 8

/-- What the PRES[1:0] pins latch: 00 gives 2, 01 gives 4, 10 and 11 give 8 (R178). -/
def presentOf (pres : BitVec 2) : PresentCount :=
  if pres = 0 then .two else if pres = 1 then .four else .eight

/-! ### Outcome codes (R158) -/

/-- The outcomes of requests (R158). -/
inductive OutcomeCode where
  | done
  | granted
  | queued
  | already
  | empty
  | more
  | off
  | notRegistered
  | lapsed
  | badRequest
  | range
  | selfOverlap
  | limit
  | conflict
  | tableFull
  | queueFull
  | tickets
  | deadlock
  | notHolder
  | badPhase
  | badMode
  | notWaiting
  | quarantined
  | notActive
  | notQuarantined
  deriving DecidableEq, Repr

/-- The 8-bit code of an outcome (R158). -/
def OutcomeCode.code : OutcomeCode → Nat
  | .done => 0x00
  | .granted => 0x01
  | .queued => 0x02
  | .already => 0x03
  | .empty => 0x04
  | .more => 0x05
  | .off => 0x10
  | .notRegistered => 0x11
  | .lapsed => 0x12
  | .badRequest => 0x13
  | .range => 0x14
  | .selfOverlap => 0x15
  | .limit => 0x16
  | .conflict => 0x17
  | .tableFull => 0x18
  | .queueFull => 0x19
  | .tickets => 0x1A
  | .deadlock => 0x1B
  | .notHolder => 0x1C
  | .badPhase => 0x1D
  | .badMode => 0x1E
  | .notWaiting => 0x1F
  | .quarantined => 0x20
  | .notActive => 0x21
  | .notQuarantined => 0x22

/-- The outcome sets the DONE flag; the others set ERROR (R158). -/
def OutcomeCode.isSuccess : OutcomeCode → Bool
  | .done | .granted | .queued | .already | .empty | .more => true
  | .off | .notRegistered | .lapsed | .badRequest | .range | .selfOverlap | .limit | .conflict
  | .tableFull | .queueFull | .tickets | .deadlock | .notHolder | .badPhase | .badMode | .notWaiting
  | .quarantined | .notActive | .notQuarantined => false

/-! ### The reply to a request (R157) -/

/-- What a completion writes: the outcome code, bits 31:16 of word 6 (the primary value, or the summary
count and next cursor of a LOOKUP), and the result records in words 7 to 15. -/
structure Reply where
  outcome : OutcomeCode
  primary : BitVec 16
  records : Vector Word 9
  deriving DecidableEq, Repr

/-- Words 7 to 15 of a request that fills none of them (R157). -/
def noRecords : Vector Word 9 :=
  Vector.replicate 9 0

/-- A reply with no result records. -/
def Reply.plain (outcome : OutcomeCode) (primary : BitVec 16) : Reply :=
  ⟨outcome, primary, noRecords⟩

/-- A reply with primary value 0 and no result records: every refusal, and a DONE without a value (R23). -/
def Reply.bare (outcome : OutcomeCode) : Reply :=
  .plain outcome 0

/-- Result word 6 (R151). -/
def Reply.word6 (r : Reply) : Word :=
  place 0 8 r.outcome.code ||| place 16 16 r.primary.toNat

/-- Result words 6 to 15 (R157). -/
def Reply.words (r : Reply) : Vector Word 10 :=
  #v[r.word6, r.records[0], r.records[1], r.records[2], r.records[3], r.records[4], r.records[5],
    r.records[6], r.records[7], r.records[8]]

/-! ### Result records (R157) -/

/-- The first word of a LOOKUP summary, result word 7 + 2n. -/
def summaryWordA (c : Claim) : Word :=
  place 0 20 c.span.first ||| place 20 3 c.holder.val ||| place 23 1 c.mode.code
    ||| place 24 3 c.phase.code ||| place 28 2 c.phase.stageCode

/-- The second word of a LOOKUP summary, result word 8 + 2n: the count less one, and the tag. -/
def summaryWordB (c : Claim) : Word :=
  place 0 16 (c.span.count - 1) ||| place 16 16 c.tag.toNat

/-- The three words of summary place `n` of a LOOKUP over the returned records: its two summary words and
its byte of word 15; all 0 when the place is not filled. -/
def summaryPlace (returned : Claims) (n : Nat) : Word × Word × Word :=
  match returned[n]? with
  | some (number, c) => (summaryWordA c, summaryWordB c, place (8 * n) 8 number.val)
  | none => (0, 0, 0)

/-- Words 7 to 15 of a LOOKUP that returns these records, at most four. -/
def lookupRecords (returned : Claims) : Vector Word 9 :=
  let p0 := summaryPlace returned 0
  let p1 := summaryPlace returned 1
  let p2 := summaryPlace returned 2
  let p3 := summaryPlace returned 3
  #v[p0.1, p0.2.1, p1.1, p1.2.1, p2.1, p2.2.1, p3.1, p3.2.1, p0.2.2 ||| p1.2.2 ||| p2.2.2 ||| p3.2.2]

/-- Bits 31:16 of word 6 of a LOOKUP: the number of summaries in 18:16 and the next cursor in 31:23
(R151). -/
def lookupPrimary (count nextCursor : Nat) : BitVec 16 :=
  BitVec.ofNat 16 (count + nextCursor * 128)

/-- Word 7 of TAKE-NOTICE. -/
def noticeWord (n : Notice) : Word :=
  place 0 2 n.outcome.code ||| place 8 8 n.outcome.claimNumber ||| place 16 16 n.tag.toNat

/-- Word 7 of CLEAR-CAPTURE, which is also the layout of status word 08Ch (R180). -/
def captureWordA (capture : Option Capture) (overflow : Bool) : Word :=
  match capture with
  | none => placeBit 1 overflow
  | some c =>
    placeBit 0 true ||| placeBit 1 overflow ||| place 2 1 (accessCode c.kind)
      ||| place 4 3 c.initiator.val ||| place 8 4 c.reason.code ||| place 16 8 c.reason.claimNumber

/-- Word 8 of CLEAR-CAPTURE, which is also the layout of status word 090h (R180). -/
def captureWordB (capture : Option Capture) : Word :=
  match capture with
  | none => 0
  | some c => place 0 20 c.granule.toNat

/-- Words 7 to 15 of CLEAR-CAPTURE. -/
def captureRecords (capture : Option Capture) (overflow : Bool) : Vector Word 9 :=
  #v[captureWordA capture overflow, captureWordB capture, 0, 0, 0, 0, 0, 0, 0]

/-- The upgrade ticket, 0 where it is absent (R5). -/
def Claim.upgradeTicketCode (c : Claim) : Nat :=
  match c.upgradeTicket with
  | some t => t.toNat
  | none => 0

/-- Words 7 to 15 of INSPECT-CLAIM; a FREE record reads 0 in every field (R143). -/
def claimRecords : Option Claim → Vector Word 9
  | none => noRecords
  | some c =>
    #v[place 0 3 c.phase.code ||| place 3 1 c.mode.code ||| place 4 2 c.phase.stageCode
        ||| place 8 3 c.holder.val,
      place 0 20 c.span.first,
      place 0 17 c.span.count,
      place 0 16 c.tag.toNat ||| place 16 16 c.upgradeTicketCode,
      0, 0, 0, 0, 0]

/-- Words 7 to 15 of INSPECT-INITIATOR (R144). -/
def initiatorRecords (i : Initiator) (r : InitRecord) (held waiters : Nat) : Vector Word 9 :=
  #v[place 0 3 i.val ||| place 4 2 r.state.code ||| place 8 8 r.generation.toNat,
    place 0 16 r.state.leaseRemaining,
    place 0 9 held ||| place 16 4 waiters ||| place 24 4 r.notices.length,
    0, 0, 0, 0, 0, 0]

/-- The mode a waiter asks for: EXCLUSIVE for every UPGRADE (R47). -/
def Waiter.mode (w : Waiter) : Mode :=
  match w.kind with
  | .claim m => m
  | .upgrade _ => .exclusive

/-- Waiter kind code (R146). -/
def WaiterKind.code : WaiterKind → Nat
  | .claim _ => 0
  | .upgrade _ => 1

/-- The claim number of an UPGRADE waiter, read as 0 for a CLAIM waiter (R146). -/
def WaiterKind.claimNumber : WaiterKind → Nat
  | .claim _ => 0
  | .upgrade n => n.val

/-- The wait remaining, 0 where it is absent (R146). -/
def Waiter.remainingCode (w : Waiter) : Nat :=
  match w.remaining with
  | some r => r
  | none => 0

/-- Words 7 to 15 of INSPECT-WAITER for a position of the queue; on EMPTY only the queue length is shown
(R146). -/
def waiterRecords (position queueLength : Nat) : Option Waiter → Vector Word 9
  | none => #v[place 8 7 queueLength, 0, 0, 0, 0, 0, 0, 0, 0]
  | some w =>
    #v[place 0 6 position ||| place 8 7 queueLength ||| place 16 1 w.kind.code ||| place 17 1 w.mode.code
        ||| place 24 3 w.initiator.val,
      place 0 20 w.span.first,
      place 0 17 w.span.count,
      place 0 16 w.tag.toNat ||| place 16 8 w.kind.claimNumber,
      place 0 16 w.remainingCode,
      0, 0, 0, 0]

end Sys2Proof.Machine
end

