-- ==== Sys2Proof/Machine/Ops.lean ====
section
/-! DEFINITION. The shared operations over the tables of the directory engine: the claim table, conflicts,
the wait queue and the grant pass, tickets and notices, the wait-for relation, an initiator's move out of
ACTIVE, the tick, and the fence outcomes.  Each rule of the manual that several requests use stands here
once. -/

namespace Sys2Proof.Machine

/-! ### The claim table (R4, R6) -/

/-- The record with this claim number; none is FREE. -/
def Claims.get (claims : Claims) (n : ClaimNo) : Option Claim :=
  claims.lookup n

/-- The table with record `n` holding `c`, whatever it held. -/
def Claims.put : Claims → ClaimNo → Claim → Claims
  | [], n, c => [(n, c)]
  | (k, d) :: rest, n, c =>
    if n < k then (n, c) :: (k, d) :: rest
    else if n = k then (n, c) :: rest
    else (k, d) :: Claims.put rest n c

/-- The table with every record changed by `f`, and freed where `f` gives none. -/
def Claims.alter (f : ClaimNo → Claim → Option Claim) (claims : Claims) : Claims :=
  claims.filterMap fun e => (f e.1 e.2).map fun c => (e.1, c)

/-- The table with record `n` FREE. -/
def Claims.free (claims : Claims) (n : ClaimNo) : Claims :=
  claims.filter fun e => !decide (e.1 = n)

/-- The table with record `n`, if it is not FREE, changed by `f`. -/
def Claims.update (claims : Claims) (n : ClaimNo) (f : Claim → Claim) : Claims :=
  claims.map fun e => if e.1 = n then (e.1, f e.2) else e

/-- The lowest-numbered FREE record (R6). -/
def Claims.lowestFree (claims : Claims) : Option ClaimNo :=
  (List.finRange 256).find? fun n => (claims.get n).isNone

/-- The claims-in-use count: the records that are not FREE (R18). -/
def Claims.inUse (claims : Claims) : Nat :=
  claims.length

/-- The quarantine count (R18). -/
def Claims.quarantineCount (claims : Claims) : Nat :=
  claims.countP fun e => decide (e.2.phase = .quarantined)

/-- The record covers the granule (R3); a FREE record is not listed and covers none. -/
def Claim.covers (c : Claim) (granule : Nat) : Bool :=
  c.span.holds granule

/-- The record is HELD or DRAINING_DOWN: it counts against the claim limit, and UPGRADE, DOWNGRADE and
RELEASE find it held by its holder (R25, R35). -/
def Claim.live (c : Claim) : Bool :=
  match c.phase with
  | .held | .drainingDown _ => true
  | .drainingOut _ | .quarantined => false

/-- The record is draining with stage PENDING. -/
def Claim.pendingDrain (c : Claim) : Bool :=
  match c.phase with
  | .drainingDown .pending | .drainingOut .pending => true
  | .held | .drainingDown .issued | .drainingOut .issued | .quarantined => false

/-- The record is draining with stage ISSUED. -/
def Claim.issuedDrain (c : Claim) : Bool :=
  match c.phase with
  | .drainingDown .issued | .drainingOut .issued => true
  | .held | .drainingDown .pending | .drainingOut .pending | .quarantined => false

/-! ### Conflicts and blocking (R16, R49, R50) -/

/-- At least one of the two modes is EXCLUSIVE. -/
def modesClash (a b : Mode) : Bool :=
  decide (a = .exclusive) || decide (b = .exclusive)

/-- A request over a span in a mode conflicts with a record that is not FREE (R16). -/
def recordConflicts (mode : Mode) (span : Span) (c : Claim) : Bool :=
  span.overlaps c.span && (modesClash mode c.mode || !decide (c.phase = .held))

/-- A request conflicts with a record of the table, `own` left out for an UPGRADE (R16). -/
def tableConflicts (claims : Claims) (own : Option ClaimNo) (mode : Mode) (span : Span) : Bool :=
  claims.any fun e => !decide (own = some e.1) && recordConflicts mode span e.2

/-- A request over a span in a mode conflicts with a waiter (R31, R49). -/
def waiterConflicts (mode : Mode) (span : Span) (v : Waiter) : Bool :=
  span.overlaps v.span && modesClash mode v.mode

/-- The waiter is a CLAIM waiter (R47). -/
def Waiter.isClaim (w : Waiter) : Bool :=
  match w.kind with
  | .claim _ => true
  | .upgrade _ => false

/-- The waiter is an UPGRADE waiter (R47). -/
def Waiter.isUpgrade (w : Waiter) : Bool :=
  !w.isClaim

/-- The record an UPGRADE waiter names, which R16 and R50 leave out of its own test. -/
def Waiter.ownRecord (w : Waiter) : Option ClaimNo :=
  match w.kind with
  | .claim _ => none
  | .upgrade n => some n

/-- The waiter conflicts with a record, or with a waiter that stands earlier: the first two obstacles of
R50. -/
def contended (claims : Claims) (earlier : List Waiter) (w : Waiter) : Bool :=
  tableConflicts claims w.ownRecord w.mode w.span || earlier.any (waiterConflicts w.mode w.span)

/-- The waiter is blocked (R50). -/
def blocked (claims : Claims) (earlier : List Waiter) (w : Waiter) : Bool :=
  contended claims earlier w || (w.isClaim && claims.lowestFree.isNone)

/-! ### Notices and the grant pass (R51, R52, R68) -/

/-- The initiator table with a notice appended to the tail of `i`'s list (R68). -/
def appendNotice (inits : Vector InitRecord 8) (i : Initiator) (n : Notice) : Vector InitRecord 8 :=
  inits.set i { inits[i] with notices := inits[i].notices ++ [n] }

/-- The record a grant makes or changes: a CLAIM takes the lowest FREE record, an UPGRADE makes its own
record EXCLUSIVE and removes the upgrade ticket (R7, R8, R52). -/
def grantedRecord (claims : Claims) (w : Waiter) : Option (ClaimNo × Claim) :=
  match w.kind with
  | .claim mode =>
    claims.lowestFree.map fun n => (n, ⟨.held, w.initiator, mode, w.span, w.tag, none⟩)
  | .upgrade n =>
    (claims.get n).map fun c => (n, { c with mode := .exclusive, upgradeTicket := none })

/-- The judgement of a waiter, or of a request at the position it would take: the record of its grant, or
none when it is blocked (R31, R36, R50, R51). -/
def judgeWaiter (claims : Claims) (earlier : List Waiter) (w : Waiter) : Option (ClaimNo × Claim) :=
  if contended claims earlier w then none else grantedRecord claims w

/-- The grant of a waiter in a pass: its record and its GRANTED notice (R52). -/
def grantWaiter (tb : Tables) (w : Waiter) (n : ClaimNo) (c : Claim) : Tables :=
  { tb with
    claims := tb.claims.put n c
    inits := appendNotice tb.inits w.initiator ⟨w.ticket, .granted n, c.tag⟩ }

/-- The walk of a grant pass: `tb.queue` holds the waiters judged blocked so far, the list those not yet
judged (R51). -/
def grantWalk : Tables → List Waiter → Tables
  | tb, [] => tb
  | tb, w :: rest =>
    match judgeWaiter tb.claims tb.queue w with
    | none => grantWalk { tb with queue := tb.queue ++ [w] } rest
    | some (n, c) => grantWalk (grantWaiter tb w n c) rest

/-- A grant pass (R51). -/
def grantPass (tb : Tables) : Tables :=
  grantWalk { tb with queue := [] } tb.queue

/-- A grant pass when its event calls for one (R54). -/
def grantPassIf (b : Bool) (tb : Tables) : Tables :=
  if b then grantPass tb else tb

/-! ### Counts of an initiator (R25, R67, R70) -/

/-- The held-claim count: records in HELD or DRAINING_DOWN with this holder (R70). -/
def heldCount (claims : Claims) (i : Initiator) : Nat :=
  claims.countP fun e => e.2.live && decide (e.2.holder = i)

/-- The waiter count: waiters of either kind (R70). -/
def waiterCount (queue : List Waiter) (i : Initiator) : Nat :=
  queue.countP fun w => decide (w.initiator = i)

/-- The claim count: live records and CLAIM waiters (R25). -/
def claimCount (tb : Tables) (i : Initiator) : Nat :=
  heldCount tb.claims i + tb.queue.countP fun w => w.isClaim && decide (w.initiator = i)

/-- The open-ticket count of an initiator: its waiters and its notices (R67). -/
def openTicketCount (tb : Tables) (i : Initiator) : Nat :=
  waiterCount tb.queue i + tb.inits[i].notices.length

/-! ### Tickets (R65, R66) -/

/-- The open tickets of all initiators (R65). -/
def openTickets (tb : Tables) : List Ticket :=
  tb.queue.map (·.ticket)
    ++ (List.finRange 8).flatMap fun i => tb.inits[i].notices.map (·.ticket)

/-- The ticket number after `t`, 65,535 followed by 1 (R66). -/
def nextTicket (t : Ticket) : Ticket :=
  if t = 65535 then 1 else t + 1

/-- The first number at or after the candidate that is not open, passing over at most `fuel` numbers. -/
def firstClosed (opened : List Ticket) : Nat → Ticket → Ticket
  | 0, t => t
  | fuel + 1, t => if t ∈ opened then firstClosed opened fuel (nextTicket t) else t

/-- The ticket the counter issues next (R66).  As many numbers can be open as there are open tickets, so
the search passes over at most that many. -/
def issuedTicket (tb : Tables) : Ticket :=
  firstClosed (openTickets tb) (openTickets tb).length tb.ticketCounter

/-! ### Places in the wait queue (R48) -/

/-- The waiters ahead of the position a new waiter takes: the whole queue for a CLAIM, the UPGRADE run for
an UPGRADE (R48). -/
def aheadOf (queue : List Waiter) (w : Waiter) : List Waiter :=
  if w.isClaim then queue else queue.takeWhile Waiter.isUpgrade

/-- The waiters behind the position a new waiter takes (R48). -/
def behindOf (queue : List Waiter) (w : Waiter) : List Waiter :=
  if w.isClaim then [] else queue.dropWhile Waiter.isUpgrade

/-- The queue with a new waiter at its position (R48). -/
def placeWaiter (queue : List Waiter) (w : Waiter) : List Waiter :=
  aheadOf queue w ++ w :: behindOf queue w

/-! ### The wait-for relation (R61 to R63) -/

/-- The pairs that one waiter gives, from its initiator to every other initiator whose live record or
earlier waiter it conflicts with (R61). -/
def pairsOf (claims : Claims) (earlier : List Waiter) (w : Waiter) : List (Initiator × Initiator) :=
  ((claims.filter fun e =>
      e.2.live && !decide (e.2.holder = w.initiator) && !decide (w.ownRecord = some e.1)
        && recordConflicts w.mode w.span e.2).map fun e => (w.initiator, e.2.holder))
    ++ ((earlier.filter fun v =>
      !decide (v.initiator = w.initiator) && waiterConflicts w.mode w.span v).map
        fun v => (w.initiator, v.initiator))

/-- The pairs of the waiters of a list that stands behind `earlier`. -/
def waitPairsFrom (claims : Claims) : List Waiter → List Waiter → List (Initiator × Initiator)
  | _, [] => []
  | earlier, w :: rest => pairsOf claims earlier w ++ waitPairsFrom claims (earlier ++ [w]) rest

/-- The wait-for relation of a claim table and a queue: `(a, b)` when a waits for b (R61). -/
def waitPairs (claims : Claims) (queue : List Waiter) : List (Initiator × Initiator) :=
  waitPairsFrom claims [] queue

/-- The initiators in `from'` together with those that one pair leads to from them. -/
def widen (pairs : List (Initiator × Initiator)) (from' : List Initiator) : List Initiator :=
  (List.finRange 8).filter fun b =>
    from'.contains b || pairs.any fun p => from'.contains p.1 && decide (p.2 = b)

/-- The initiators reached from a list by at most `n` pairs. -/
def reached (pairs : List (Initiator × Initiator)) : Nat → List Initiator → List Initiator
  | 0, start => start
  | n + 1, start => reached pairs n (widen pairs start)

/-- Initiator a waits for b directly or through others: some pair leaves a, and b is reached from its end
(there are eight initiators, so a path needs at most seven more pairs). -/
def waitsThrough (pairs : List (Initiator × Initiator)) (a b : Initiator) : Bool :=
  (reached pairs 7 ((pairs.filter fun p => decide (p.1 = a)).map (·.2))).contains b

/-- The relation has a cycle (R62, R63). -/
def hasCycle (pairs : List (Initiator × Initiator)) : Bool :=
  (List.finRange 8).any fun a => waitsThrough pairs a a

/-! ### Queuing (R55, R56, R66) -/

/-- The capacity of the wait queue (R46). -/
def queueCapacity : Nat := 64

/-- The open tickets one initiator may have (R67). -/
def ticketCapacity : Nat := 8

/-- What refuses the placement of a waiter, in the order of R55. -/
def placementRefusal (tb : Tables) (w : Waiter) : Option OutcomeCode :=
  if queueCapacity ≤ tb.queue.length then some .queueFull
  else if ticketCapacity ≤ openTicketCount tb w.initiator then some .tickets
  else if hasCycle (waitPairs tb.claims (placeWaiter tb.queue w)) then some .deadlock
  else none

/-- The claim table with the upgrade ticket of the record an UPGRADE waiter names set to `t` (R8). -/
def setUpgradeTicket (claims : Claims) (w : Waiter) (t : Option Ticket) : Claims :=
  match w.ownRecord with
  | some n => claims.update n fun c => { c with upgradeTicket := t }
  | none => claims

/-- The tables with the waiter queued under its ticket, which the counter issued (R55, R66). -/
def queueWaiter (tb : Tables) (w : Waiter) : Tables :=
  { tb with
    claims := setUpgradeTicket tb.claims w (some w.ticket)
    queue := placeWaiter tb.queue w
    ticketCounter := nextTicket w.ticket }

/-- A request offered to the queue: refused, or queued with its ticket (R34, R37, R55). -/
def offerWaiter (tb : Tables) (w : Waiter) : Tables × Reply :=
  match placementRefusal tb w with
  | some o => (tb, .bare o)
  | none => (queueWaiter tb w, .plain .queued w.ticket)

/-! ### The fence queue (R94, R95) -/

/-- The fence queue with `i` at the tail, unless it stands there already (R41, R95). -/
def appendFence (fenceQueue : List Initiator) (i : Initiator) : List Initiator :=
  if i ∈ fenceQueue then fenceQueue else fenceQueue ++ [i]

/-! ### Moves out of ACTIVE (R77, R78, R81, R82) -/

/-- The disposal of a record when initiator `i` leaves: HELD SHARED becomes FREE, HELD EXCLUSIVE
DRAINING_OUT PENDING, DRAINING_DOWN DRAINING_OUT with its stage kept (R77, R81). -/
def disposeRecord (i : Initiator) (c : Claim) : Option Claim :=
  if c.holder = i then
    match c.phase, c.mode with
    | .held, .shared => none
    | .held, .exclusive => some { c with phase := .drainingOut .pending }
    | .drainingDown stage, _ => some { c with phase := .drainingOut stage }
    | .drainingOut _, _ | .quarantined, _ => some c
  else some c

/-- The initiator has a record in HELD or DRAINING_DOWN, or a waiter: its leaving runs a grant pass
(R54). -/
def hasStake (tb : Tables) (i : Initiator) : Bool :=
  (tb.claims.any fun e => e.2.live && decide (e.2.holder = i))
    || tb.queue.any fun w => decide (w.initiator = i)

/-- The fence queue after `i`'s records were disposed of: `i` is appended when it has a PENDING drain and
does not stand there (R78, R82). -/
def fenceAfterLeave (claims : Claims) (fenceQueue : List Initiator) (i : Initiator) : List Initiator :=
  if claims.any fun e => e.2.pendingDrain && decide (e.2.holder = i) then appendFence fenceQueue i
  else fenceQueue

/-- Initiator `i` leaves ACTIVE for `st` (UNREGISTERED or LAPSED): its records are disposed of, its waiters
and notices discarded, its fence-queue entry made if needed, its generation kept (R77, R78, R81, R82). -/
def leaveActive (tb : Tables) (i : Initiator) (st : InitState) : Tables :=
  let claims := tb.claims.alter fun _ c => disposeRecord i c
  { tb with
    claims := claims
    queue := tb.queue.filter fun w => !decide (w.initiator = i)
    inits := tb.inits.set i { state := st, generation := tb.inits[i].generation, notices := [] }
    fenceQueue := fenceAfterLeave claims tb.fenceQueue i }

/-! ### The tick at the directory engine (R86) -/

/-- The tick brings the waiter's wait remaining to 0 (R57). -/
def Waiter.expires (w : Waiter) : Bool :=
  match w.remaining with
  | some r => decide (r ≤ 1)
  | none => false

/-- The waiter with its wait remaining lowered by one (R57). -/
def Waiter.lower (w : Waiter) : Waiter :=
  { w with remaining := w.remaining.map (· - 1) }

/-- One waiter expires: an EXPIRED notice, and for an UPGRADE the record loses its upgrade ticket (R57). -/
def expireWaiter (tb : Tables) (w : Waiter) : Tables :=
  { tb with
    claims := setUpgradeTicket tb.claims w none
    inits := appendNotice tb.inits w.initiator ⟨w.ticket, .expired, w.tag⟩ }

/-- Stage 1 of a tick: expiry, in queue order (R57, R86). -/
def tickExpiry (tb : Tables) : Tables :=
  (tb.queue.filter Waiter.expires).foldl expireWaiter
    { tb with queue := (tb.queue.filter fun w => !w.expires).map Waiter.lower }

/-- The tick brings initiator `i`'s lease to 0 (R80). -/
def leaseEnds (tb : Tables) (i : Initiator) : Bool :=
  match tb.inits[i].state with
  | .active lease => decide (lease ≤ 1)
  | .absent | .unregistered | .lapsed => false

/-- The tick at one initiator: its lease is lowered, or it lapses (R80 to R82).  DESIGN CHOICE (log entry 15,
unsafe): with a lease length of 1, a request taken before the tick restarts the lease to 1, and the tick lowers it
to 0; R80 lets the initiator lapse then, R88 says that it does not lapse on that tick, and the model follows R80. -/
def tickLease (tb : Tables) (i : Initiator) : Tables :=
  match tb.inits[i].state with
  | .active lease =>
    if lease ≤ 1 then leaveActive tb i .lapsed
    else { tb with inits := tb.inits.set i { tb.inits[i] with state := .active (lease - 1) } }
  | .absent | .unregistered | .lapsed => tb

/-- Stage 2 of a tick: leases, in ascending order of initiator number (R86, R87). -/
def tickLeases (tb : Tables) : Tables :=
  (List.finRange 8).foldl tickLease tb

/-- A tick taken by the directory engine: expiry, leases, and one grant pass if any waiter expired or any
initiator lapsed (R86). -/
def tickTables (tb : Tables) : Tables :=
  grantPassIf (tb.queue.any Waiter.expires || (List.finRange 8).any (leaseEnds tb))
    (tickLeases (tickExpiry tb))

/-! ### Fence issue and fence outcomes (R13 to R15) -/

/-- The issue of a fence for `i` at one record: PENDING becomes ISSUED (R13). -/
def issueDrain (i : Initiator) (c : Claim) : Claim :=
  if c.holder = i then
    match c.phase with
    | .drainingDown .pending => { c with phase := .drainingDown .issued }
    | .drainingOut .pending => { c with phase := .drainingOut .issued }
    | .held | .drainingDown .issued | .drainingOut .issued | .quarantined => c
  else c

/-- A DONE outcome for `i` at one record: an ISSUED DRAINING_OUT record becomes FREE, an ISSUED
DRAINING_DOWN record HELD SHARED (R14). -/
def finishDrain (i : Initiator) (c : Claim) : Option Claim :=
  if c.holder = i then
    match c.phase with
    | .drainingOut .issued => none
    | .drainingDown .issued => some { c with phase := .held, mode := .shared }
    | .held | .drainingDown .pending | .drainingOut .pending | .quarantined => some c
  else some c

/-- A FAILED outcome for `i` at one record: an ISSUED drain becomes QUARANTINED (R15). -/
def failDrain (i : Initiator) (c : Claim) : Claim :=
  if c.holder = i then
    match c.phase with
    | .drainingOut .issued | .drainingDown .issued => { c with phase := .quarantined }
    | .held | .drainingDown .pending | .drainingOut .pending | .quarantined => c
  else c

/-- Some record is an ISSUED drain of `i`, so an outcome for `i` changes a record (R54). -/
def hasIssuedDrain (claims : Claims) (i : Initiator) : Bool :=
  claims.any fun e => e.2.issuedDrain && decide (e.2.holder = i)

/-- The DONE outcome at the directory engine (R111). -/
def doneOutcome (tb : Tables) (i : Initiator) : Tables :=
  grantPassIf (hasIssuedDrain tb.claims i)
    { tb with claims := tb.claims.alter fun _ c => finishDrain i c }

/-- The FAILED outcome at the directory engine (R112). -/
def failedOutcome (tb : Tables) (i : Initiator) : Tables :=
  grantPassIf (hasIssuedDrain tb.claims i)
    { tb with claims := tb.claims.alter fun _ c => some (failDrain i c) }

/-- The tables after the issue of a fence for `i`, whose entry at the head leaves the queue (R97). -/
def issueTables (tb : Tables) (i : Initiator) (rest : List Initiator) : Tables :=
  { tb with
    claims := tb.claims.alter fun _ c => some (issueDrain i c)
    fenceQueue := rest }

/-! ### Leases and registration (R21, R73, R79) -/

/-- The lease of an ACTIVE initiator restarted; nothing for any other state (R21, R79). -/
def restartLease (inits : Vector InitRecord 8) (i : Initiator) (leaseLength : Nat) :
    Vector InitRecord 8 :=
  match inits[i].state with
  | .active _ => inits.set i { inits[i] with state := .active leaseLength }
  | .absent | .unregistered | .lapsed => inits

/-- The generation after `g`: raised by one, and 1 after 255 (R73). -/
def nextGeneration (g : BitVec 8) : BitVec 8 :=
  if g = 255 then 1 else g + 1

/-! ### The teardown (R168) -/

/-- The record of an initiator after the teardown: UNREGISTERED unless ABSENT, generation kept (R70). -/
def teardownInit (r : InitRecord) : InitRecord :=
  { state := if r.state = .absent then .absent else .unregistered
    generation := r.generation
    notices := [] }

/-- Every record of the initiator table changed by `f`. -/
def mapInits (f : InitRecord → InitRecord) (inits : Vector InitRecord 8) : Vector InitRecord 8 :=
  #v[f inits[0], f inits[1], f inits[2], f inits[3], f inits[4], f inits[5], f inits[6], f inits[7]]

/-- The tables after the DISABLE teardown: every record FREE, both queues and every notice list empty, the
ticket counter kept (R168). -/
def teardownTables (tb : Tables) : Tables where
  claims := []
  queue := []
  inits := mapInits teardownInit tb.inits
  ticketCounter := tb.ticketCounter
  fenceQueue := []

end Sys2Proof.Machine
end

