-- ==== Sys2Proof/Machine/Fence.lean ====
section
/-! DEFINITION. The fence unit (chapter 5): the issue of a fence, the answers on the fence port, the ticks
it takes, and the failure of a fence. -/

namespace Sys2Proof.Machine

/-- An issue is due: the fence unit is IDLE and the fence queue is not empty (R97). -/
def State.issueDue (s : State) : Bool :=
  decide (s.flight = .idle) && !s.tables.fenceQueue.isEmpty

/-- The issue of a fence, when it is due (R97): the head leaves the queue, the fence is TIMED with the
fence limit, the PENDING drains of its initiator become ISSUED.  A tick that waited for the issue may be
taken from now on. -/
def issueFence (s : State) : State :=
  if s.inReset then s
  else
    match s.flight, s.tables.fenceQueue with
    | .idle, i :: rest =>
      { s with
        tables := issueTables s.tables i rest
        flight := .timed i s.config.fenceLimit
        fenceTickHeld := false }
    | _, _ => s

/-- FENCE_ISSUE (R97). -/
def execFenceIssue (s : State) : Host.Outcome State Fault Refusal :=
  .next (issueFence s)

/-- A DONE taken by the fence unit: the fence in flight ends and its outcome is applied in the same event;
ignored in IDLE (R101, R111). -/
def takeDone (s : State) : State :=
  match s.flight with
  | .idle => s
  | .timed i _ | .deferred i => { s with flight := .idle, tables := doneOutcome s.tables i }

/-- A DEFER taken by the fence unit: a TIMED fence becomes DEFERRED; ignored otherwise (R102). -/
def takeDefer (s : State) : State :=
  match s.flight with
  | .timed i _ => { s with flight := .deferred i }
  | .idle | .deferred _ => s

/-- An answer on the fence port with this kind code, FAKIND[1:0]: 0 DONE, 1 DEFER, 2 and 3 ignored (R101).
No answer is taken while RESETn is low (R179). -/
def fenceAnswer (code : BitVec 2) (s : State) : State :=
  if s.inReset then s
  else if code = 0 then takeDone s
  else if code = 1 then takeDefer s
  else s

/-- FENCE_DONE (R101). -/
def execFenceDone (s : State) : Host.Outcome State Fault Refusal :=
  .next (fenceAnswer 0 s)

/-- FENCE_DEFER (R102). -/
def execFenceDefer (s : State) : Host.Outcome State Fault Refusal :=
  .next (fenceAnswer 1 s)

/-- FENCE_ANSWER_OTHER_KIND (R101). -/
def execFenceAnswerOtherKind (code : BitVec 2) (s : State) : Host.Outcome State Fault Refusal :=
  .next (fenceAnswer code s)

/-- The fence unit can take a tick: one was delivered, the directory is not DORMANT, where a TIMED fence's timer
stands still and the fence cannot fail (R116, R172), and no due issue must be made before it, as it must when
the tick fell while that issue was due (R97; log entry 6). -/
def State.fenceTickReady (s : State) : Bool :=
  !s.inReset && !decide (s.dirState = .dormant) && s.fenceTick && !(s.issueDue && s.fenceTickHeld)

/-- The tick that the fence unit was delivered is no longer waiting. -/
def State.fenceTickTaken (s : State) : State :=
  { s with fenceTick := false, fenceTickHeld := false }

/-- The failure of the fence in flight for `i` (R104): the fence unit is IDLE and the FAILED outcome is
applied in the same event. -/
def failFence (i : Initiator) (s : State) : State :=
  { s with flight := .idle, tables := failedOutcome s.tables i }

/-- A tick at the fence unit: the timer of a TIMED fence is lowered, and the fence fails when it reaches 0;
no effect in IDLE and DEFERRED (R103, R104). -/
def tickFlight (s : State) : State :=
  match s.flight with
  | .timed i timer =>
    if timer ≤ 1 then failFence i s else { s with flight := .timed i (timer - 1) }
  | .idle | .deferred _ => s

/-- A delivered tick taken by the fence unit, when it can take one (R103). -/
def takeFenceTick (s : State) : State :=
  if s.fenceTickReady then tickFlight s.fenceTickTaken else s

/-- FENCE_UNIT_TICK (R103). -/
def execFenceUnitTick (s : State) : Host.Outcome State Fault Refusal :=
  .next (takeFenceTick s)

/-- The initiator whose TIMED fence the next tick brings to 0 (R104). -/
def FenceFlight.expiring : FenceFlight → Option Initiator
  | .timed i timer => if timer ≤ 1 then some i else none
  | .idle | .deferred _ => none

/-- The fence timer reaches 0, when a delivered tick can be taken and brings it there (R104; log
entry 5). -/
def expireFenceTimer (s : State) : State :=
  match s.flight.expiring with
  | some i => if s.fenceTickReady then failFence i s.fenceTickTaken else s
  | none => s

/-- FENCE_TIMER_EXPIRY (R104). -/
def execFenceTimerExpiry (s : State) : Host.Outcome State Fault Refusal :=
  .next (expireFenceTimer s)

end Sys2Proof.Machine
end

