-- ==== Sys2Proof/Machine/Ticks.lean ====
section
/-! DEFINITION. Delivered ticks: the tick that the directory engine takes (R86), and the taking of every tick that
waits at a block, which comes before time goes on and before the directory becomes DORMANT (log entry 6). -/

namespace Sys2Proof.Machine

/-- A delivered tick taken by the directory engine; nothing when none is delivered (R86, R177; log entry 4), and
nothing in DORMANT, where no lease and no wait remaining lowers (R56, R80, R172). -/
def takeEngineTick (s : State) : State :=
  if !s.inReset && !decide (s.dirState = .dormant) && s.engineTick then
    { s with tables := tickTables s.tables, engineTick := false }
  else s

/-- The issue that the fence unit makes before the tick that waits for it (R97). -/
def issueBeforeTick (s : State) : State :=
  if s.fenceTick && s.fenceTickHeld then issueFence s else s

/-- Every tick that waits at a block is taken: at the directory engine, and at the fence unit after the issue that
must come first (R86, R97, R103; log entry 6). -/
def settle (s : State) : State :=
  takeFenceTick (issueBeforeTick (takeEngineTick s))

end Sys2Proof.Machine
end

