-- ==== Sys2Proof/Machine/Requests.lean ====
section
/-! DEFINITION. How a request is taken (chapter 8): the request arbiter's choice, the gate before every
initiator request, the lease restart, and the completion, with the end of ownership and the entry into
DORMANT that a completion can bring.  The meanings of the requests are judges handed to `takeInitiator` and
`takeManagement`. -/

namespace Sys2Proof.Machine

/-! ### Mailboxes -/

/-- The mailbox with this name. -/
def State.mailbox (s : State) : MailboxId → Mailbox
  | .management => s.mgmt
  | .initiator i => s.mailboxes[i]

/-- PHASE is BUSY (R151). -/
def Mailbox.busy (mb : Mailbox) : Bool :=
  mb.captured.isSome

/-! ### The request arbiter (R155) -/

/-- The nine mailboxes in ring order from the management mailbox. -/
def ring : List MailboxId :=
  .management :: (List.finRange 8).map .initiator

/-- The place of a mailbox in the ring. -/
def ringPlace : MailboxId → Nat
  | .management => 0
  | .initiator i => i.val + 1

/-- The nine mailboxes in ring order from the one that follows the pointer, the pointer's own last. -/
def ringAfter (pointer : MailboxId) : List MailboxId :=
  ring.drop (ringPlace pointer + 1) ++ ring.take (ringPlace pointer + 1)

/-- The first BUSY mailbox that follows the pointer in ring order (R155). -/
def State.arbiterChoice (s : State) : Option MailboxId :=
  (ringAfter s.arbiter).find? fun m => (s.mailbox m).busy

/-- Some mailbox is BUSY. -/
def State.anyBusy (s : State) : Bool :=
  ring.any fun m => (s.mailbox m).busy

/-- The request the arbiter hands to the directory engine, if it is of this kind: its mailbox and its
captured words.  None while RESETn is low, when no mailbox is BUSY, and when the arbiter's choice holds a
request of another kind: then no request of this kind is taken (R155, R179; log entry 4). -/
def State.offered (s : State) (k : RequestKind) : Option (MailboxId × RequestWords) :=
  if s.inReset then none
  else
    match s.arbiterChoice with
    | none => none
    | some m =>
      match (s.mailbox m).captured with
      | none => none
      | some w => if requestKind m w.w1 = k then some (m, w) else none

/-! ### Ticks before the entry into DORMANT (R171, R177) -/

/-- No other mailbox than `m` is BUSY. -/
def State.soleBusy (s : State) (m : MailboxId) : Bool :=
  ring.all fun x => decide (x = m) || !(s.mailbox x).busy

/-- The completion of a request of kind `k` taken from mailbox `m` enters DORMANT (R170, R171): ENABLE and DISABLE
end the quiescing, and DORMANT begins it. -/
def State.entersDormancy (s : State) (m : MailboxId) (k : RequestKind) : Bool :=
  s.soleBusy m &&
    match s.dirState with
    | .quiescing => !decide (k = .enable) && !decide (k = .disable)
    | .on => decide (k = .dormant)
    | .off | .dormant => false

/-- The state in which a request of kind `k` is taken: where its completion enters DORMANT, a tick that fell
before the entry was delivered, and is taken before it (R177; log entry 6). -/
def State.readied (s : State) (k : RequestKind) : State :=
  match s.offered k with
  | some (m, _) => if s.entersDormancy m k then settle s else s
  | none => s

/-! ### Completion (R156) -/

/-- The mailbox after its request completed: IDLE, the result words written, DONE set for a success code
or ERROR for a refusal code (R156 to R158). -/
def Mailbox.complete (mb : Mailbox) (r : Reply) : Mailbox :=
  { mb with
    captured := none
    done := mb.done || r.outcome.isSuccess
    error := mb.error || !r.outcome.isSuccess
    result := r.words }

/-- The ownership after a management request completed: it ends when the owner submitted that request
(R162). -/
def endOwnership (submitter : Option Initiator) : Option Ownership → Option Ownership
  | none => none
  | some o => if o.submitted && decide (submitter = some o.manager) then none else some o

/-- A QUIESCING directory becomes DORMANT at a completion that leaves no mailbox BUSY (R171). -/
def State.enterDormancy (s : State) : State :=
  if s.dirState = .quiescing ∧ s.anyBusy = false then { s with dirState := .dormant } else s

/-- The completion of a request taken from mailbox `m`, in the event of the take: the arbiter's pointer
moves to `m` (R155), the mailbox completes (R156), a management completion ends the ownership (R162), and
a QUIESCING directory may become DORMANT (R171). -/
def State.complete (s : State) (m : MailboxId) (r : Reply) : State :=
  match m with
  | .management =>
    State.enterDormancy { s with
      arbiter := .management
      mgmt := s.mgmt.complete r
      submitter := none
      ownership := endOwnership s.submitter s.ownership }
  | .initiator i =>
    State.enterDormancy { s with
      arbiter := .initiator i
      mailboxes := s.mailboxes.set i (s.mailboxes[i].complete r) }

/-! ### Initiator requests -/

/-- The gate before every initiator request (R20): the refusal, or none when the request's own checks
apply.  An ABSENT initiator cannot submit (R71); the model refuses it like one that is not registered
(log entry 12). -/
def gate (d : DirState) (st : InitState) (k : RequestKind) : Option OutcomeCode :=
  if d = .off then some .off
  else
    match st with
    | .active _ => none
    | .lapsed => if k = .register then none else some .lapsed
    | .unregistered => if k = .register ∨ k = .lookup then none else some .notRegistered
    | .absent => some .notRegistered

/-- What an initiator request does by its own checks: from the configuration, the initiator and the
captured words, the new tables and the reply. -/
abbrev InitiatorJudge := ConfigRegs → Initiator → RequestWords → Tables → Tables × Reply

/-- The tables with the lease of an ACTIVE requester restarted; in OFF no lease is restarted (R21). -/
def State.leaseRestarted (s : State) (i : Initiator) : Tables :=
  if s.dirState = .off then s.tables
  else { s.tables with inits := restartLease s.tables.inits i s.config.leaseLength }

/-- A request of kind `k` from initiator `i`, judged: the lease restart, the gate, and past the gate the
request's own judge (R20, R21). -/
def State.judgeInitiator (s : State) (k : RequestKind) (judge : InitiatorJudge) (i : Initiator)
    (w : RequestWords) : Tables × Reply :=
  match gate s.dirState s.tables.inits[i].state k with
  | some o => (s.leaseRestarted i, .bare o)
  | none => judge s.config i w (s.leaseRestarted i)

/-- The service of an initiator request of kind `k`, when the arbiter offers one. -/
def serveInitiator (k : RequestKind) (judge : InitiatorJudge) (s : State) : State :=
  match s.offered k with
  | some (.initiator i, w) =>
    State.complete { s with tables := (s.judgeInitiator k judge i w).1 } (.initiator i)
      (s.judgeInitiator k judge i w).2
  | some (.management, _) => s
  | none => s

/-- The take of an initiator request of kind `k`, when the arbiter offers one. -/
def takeInitiator (k : RequestKind) (judge : InitiatorJudge) (s : State) : State :=
  serveInitiator k judge (s.readied k)

/-! ### Management requests -/

/-- What a management request does: from the captured words and the state, the new state and the reply. -/
abbrev ManagementJudge := RequestWords → State → State × Reply

/-- The service of a management request of kind `k`, when the arbiter offers one.  It restarts no lease
(R79, R152). -/
def serveManagement (k : RequestKind) (judge : ManagementJudge) (s : State) : State :=
  match s.offered k with
  | some (.management, w) => (judge w s).1.complete .management (judge w s).2
  | some (.initiator _, _) => s
  | none => s

/-- The take of a management request of kind `k`, when the arbiter offers one. -/
def takeManagement (k : RequestKind) (judge : ManagementJudge) (s : State) : State :=
  serveManagement k judge (s.readied k)

end Sys2Proof.Machine
end

