-- ==== Sys2Proof/Machine/Flags.lean ====
section
/-! DEFINITION. What the outside sees of the state: the attention lines (R159, R160), the fence port's
outputs (R98), the words of the window as a bus read returns them (R149, R151, R173, R180), and the answer
to a bus read (R150). -/

namespace Sys2Proof.Machine

/-! ### Attention lines -/

/-- The completion term of an attention line: the mailbox is IDLE, DONE or ERROR is set, and CMPE is set
(R159, R160). -/
def Mailbox.completionTerm (mb : Mailbox) : Bool :=
  !mb.busy && (mb.done || mb.error) && mb.cmpe

/-- ATNi (R159); low for an ABSENT initiator, and low while RESETn is low (R179). -/
def State.atn (s : State) (i : Initiator) : Bool :=
  !s.inReset && !decide (s.tables.inits[i].state = .absent)
    && (s.mailboxes[i].completionTerm
      || (!s.tables.inits[i].notices.isEmpty && s.ntfe[i])
      || decide (s.tables.inits[i].state = .lapsed))

/-- ATNM (R160); low while RESETn is low (R179). -/
def State.atnm (s : State) : Bool :=
  !s.inReset
    && (s.mgmt.completionTerm
      || (s.capture.isSome && s.cape)
      || (decide (0 < s.tables.claims.quarantineCount) && s.qae))

/-! ### The fence port's outputs -/

/-- FREQ, high while a fence is in flight (R98). -/
def State.freq (s : State) : Bool :=
  match s.flight with
  | .idle => false
  | .timed _ _ | .deferred _ => true

/-- FINIT[2:0], the fence's initiator, and 0 while the request is low (R98). -/
def State.finit (s : State) : Initiator :=
  match s.flight with
  | .idle => 0
  | .timed i _ | .deferred i => i

/-- The deferred flag (R96). -/
def FenceFlight.isDeferred : FenceFlight → Bool
  | .deferred _ => true
  | .idle | .timed _ _ => false

/-! ### The window (R149) -/

/-- The regions of the window, by word offset A[9:2]. -/
inductive Region where
  | management (word : Nat)
  | config (word : Nat)
  | status (word : Nat)
  | mailbox (i : Initiator) (word : Nat)
  | unused
  deriving DecidableEq, Repr

/-- The region of a word offset: 000h the management mailbox, 040h the configuration registers, 080h the
status block, 100h + 40h × i initiator mailbox i, the rest unused (R149). -/
def regionOf (addr : BitVec 8) : Region :=
  if addr.toNat < 16 then .management addr.toNat
  else if addr.toNat < 32 then .config (addr.toNat - 16)
  else if addr.toNat < 48 then .status (addr.toNat - 32)
  else if addr.toNat < 64 then .unused
  else if h : addr.toNat < 192 then
    .mailbox ⟨(addr.toNat - 64) / 16, by omega⟩ ((addr.toNat - 64) % 16)
  else .unused

/-- The word offset of word 0 of a mailbox (R149). -/
def mailboxBase : MailboxId → BitVec 8
  | .management => 0
  | .initiator i => BitVec.ofNat 8 (64 + 16 * i.val)

/-- The configuration register at a word of its region; none at the reserved offsets and at 07Ch (R173). -/
def configRegAt : Nat → Option ConfigReg
  | 0 => some .tickPeriod
  | 1 => some .leaseLength
  | 2 => some .fenceLimit
  | 3 => some .claimLimit
  | 4 => some .guardLimit
  | 5 => some .unclaimedWrite
  | 6 => some .readThrough
  | 7 => some .managerSet
  | _ => none

/-- The word of the configuration region that holds the config-refusal flag, 07Ch (R173). -/
def refusalWord : Nat := 15

/-- The word of a configuration register within the configuration region (R173). -/
def configWord : ConfigReg → Nat
  | .tickPeriod => 0
  | .leaseLength => 1
  | .fenceLimit => 2
  | .claimLimit => 3
  | .guardLimit => 4
  | .unclaimedWrite => 5
  | .readThrough => 6
  | .managerSet => 7

/-- The value of a configuration register as a read returns it (R173). -/
def ConfigRegs.value (c : ConfigRegs) : ConfigReg → Nat
  | .tickPeriod => c.tickPeriod
  | .leaseLength => c.leaseLength
  | .fenceLimit => c.fenceLimit
  | .claimLimit => c.claimLimit
  | .guardLimit => c.guardLimit
  | .unclaimedWrite => c.unclaimedClosed.toNat
  | .readThrough => c.readThrough.toNat
  | .managerSet => c.managerSet.toNat

/-- The flags and the enable that every mailbox shows in word 0; START reads 0 (R151). -/
def Mailbox.controlBits (mb : Mailbox) : Word :=
  placeBit 1 mb.busy ||| placeBit 2 mb.done ||| placeBit 3 mb.error ||| placeBit 4 mb.ovr
    ||| placeBit 5 mb.cmpe

/-- Word 0 of initiator mailbox i (R151). -/
def State.initiatorWord0 (s : State) (i : Initiator) : Word :=
  s.mailboxes[i].controlBits ||| placeBit 6 s.ntfe[i]
    ||| placeBit 7 (decide (s.tables.inits[i].state = .lapsed))
    ||| place 8 4 s.tables.inits[i].notices.length ||| place 12 2 s.tables.inits[i].state.code

/-- Word 0 of the management mailbox (R151). -/
def State.managementWord0 (s : State) : Word :=
  s.mgmt.controlBits ||| placeBit 14 s.cape ||| placeBit 15 s.qae

/-- Words 1 to 15 of a mailbox; word 5 holds no field and reads 0 (R151). -/
def Mailbox.readWord (mb : Mailbox) : Nat → Word
  | 1 => mb.request.w1
  | 2 => mb.request.w2
  | 3 => mb.request.w3
  | 4 => mb.request.w4
  | n => if h : 6 ≤ n ∧ n < 16 then mb.result[n - 6] else 0

/-- A word of the configuration region (R173). -/
def State.readConfig (s : State) (word : Nat) : Word :=
  match configRegAt word with
  | some r => BitVec.ofNat 32 (s.config.value r)
  | none => if word = refusalWord then placeBit 0 s.configRefused else 0

/-- Status word 088h (R180). -/
def State.statusWord088 (s : State) : Word :=
  place 0 7 s.tables.queue.length ||| place 8 4 s.tables.fenceQueue.length ||| placeBit 16 s.freq
    ||| place 20 3 s.finit.val ||| placeBit 23 s.flight.isDeferred
    ||| (match s.ownership with
      | some o => placeBit 24 true ||| place 28 3 o.manager.val
      | none => 0)

/-- A word of the status block (R180). -/
def State.readStatus (s : State) : Nat → Word
  | 0 =>
    place 0 2 s.dirState.code ||| placeBit 4 s.configRefused ||| placeBit 8 s.straps.autoon
      ||| placeBit 9 s.straps.mgrall ||| place 12 2 s.straps.present.code
  | 1 => place 0 9 s.tables.claims.inUse ||| place 16 9 s.tables.claims.quarantineCount
  | 2 => s.statusWord088
  | 3 => captureWordA s.capture s.overflow
  | 4 => captureWordB s.capture
  | _ => 0

/-- The word a bus read at a word offset finds (R149). -/
def State.readWindow (s : State) (addr : BitVec 8) : Word :=
  match regionOf addr with
  | .management 0 => s.managementWord0
  | .management word => s.mgmt.readWord word
  | .config word => s.readConfig word
  | .status word => s.readStatus word
  | .mailbox i 0 => s.initiatorWord0 i
  | .mailbox i word => s.mailboxes[i].readWord word
  | .unused => 0

/-! ### Bus responses (R150) -/

/-- The initiator is ABSENT: every access of it is answered with an error response (R150). -/
def State.isAbsent (s : State) (who : Initiator) : Bool :=
  decide (s.tables.inits[who].state = .absent)

/-- The initiator is in the manager set (R150, R173). -/
def State.isManager (s : State) (who : Initiator) : Bool :=
  s.config.managerSet.getLsbD who.val

/-- The answer to a bus read (R150): an error response while RESETn is low (R179), an error response with
data 0 to an ABSENT initiator, and otherwise ready with the word.  A read changes nothing, but for the read
of management word 0 that TAKE_OWNERSHIP stands for. -/
def State.busRead (s : State) (who : Initiator) (addr : BitVec 8) : BusResponse :=
  if s.inReset then ⟨true, none⟩
  else if s.isAbsent who then ⟨true, some 0⟩
  else ⟨false, some (s.readWindow addr)⟩

/-- The state with the bus outputs answering a write with an error response. -/
def State.errorResponse (s : State) : State :=
  { s with busOut := some ⟨true, none⟩ }

/-- The state with the bus outputs answering a write with a ready response. -/
def State.readyResponse (s : State) : State :=
  { s with busOut := some ⟨false, none⟩ }

end Sys2Proof.Machine
end

