-- ==== Sys2Proof/Machine/Bus.lean ====
section
/-! DEFINITION. Bus accesses (chapter 8, and the configuration registers of chapter 9): one operation,
`busWrite`, decodes a write by its offset and gives it the effect of its location; the rows of the table
that are bus writes are that operation at their offsets. -/

namespace Sys2Proof.Machine

/-! ### Writes to a mailbox (R153, R154) -/

/-- The mailbox after a write of `data` to its word 0: CMPE set from the data, each flag written as 1
cleared, and with START a submission when IDLE, OVR when BUSY (R153, R154). -/
def Mailbox.writeControl (mb : Mailbox) (data : Word) : Mailbox :=
  let cleared := { mb with
    cmpe := data.getLsbD 5
    done := mb.done && !data.getLsbD 2
    error := mb.error && !data.getLsbD 3
    ovr := mb.ovr && !data.getLsbD 4 }
  if data.getLsbD 0 then
    if mb.busy then { cleared with ovr := true }
    else { cleared with captured := some mb.request, done := false, error := false, ovr := false }
  else cleared

/-- The write is a submission: START written as 1 while the mailbox is IDLE (R153). -/
def Mailbox.submits (mb : Mailbox) (data : Word) : Bool :=
  data.getLsbD 0 && !mb.busy

/-- The request words after a write to word `word` of an IDLE mailbox (R153). -/
def RequestWords.write (r : RequestWords) (word : Nat) (data : Word) : RequestWords :=
  match word with
  | 1 => { r with w1 := maskWord1 data }
  | 2 => { r with w2 := data }
  | 3 => { r with w3 := data }
  | 4 => { r with w4 := data }
  | _ => r

/-- The mailbox after a write to one of its words 1 to 15: words 1 to 5 are ignored and set OVR while BUSY
(R154), words 1 to 4 are stored while IDLE, word 5 has no effect while IDLE (R153), and words 6 to 15 ignore
writes (R151). -/
def Mailbox.writeWord (mb : Mailbox) (word : Nat) (data : Word) : Mailbox :=
  if 6 ≤ word then mb
  else if mb.busy then { mb with ovr := true }
  else { mb with request := mb.request.write word data }

/-- A submission in any mailbox returns a DORMANT directory to ON (R172). -/
def DirState.submitted : DirState → DirState
  | .dormant => .on
  | .off => .off
  | .on => .on
  | .quiescing => .quiescing

/-- The submission of the owner sets the submitted mark (R162). -/
def markSubmitted (who : Initiator) : Option Ownership → Option Ownership
  | some o => if o.manager = who then some { o with submitted := true } else some o
  | none => none

/-- An accepted write to word 0 of initiator mailbox `i` (R153). -/
def writeInitiatorControl (i : Initiator) (data : Word) (s : State) : State :=
  { s with
    mailboxes := s.mailboxes.set i (s.mailboxes[i].writeControl data)
    ntfe := s.ntfe.set i (data.getLsbD 6)
    dirState := if s.mailboxes[i].submits data then s.dirState.submitted else s.dirState }

/-- An accepted write by manager `who` to word 0 of the management mailbox (R153, R162). -/
def writeManagementControl (who : Initiator) (data : Word) (s : State) : State :=
  { s with
    mgmt := s.mgmt.writeControl data
    cape := data.getLsbD 14
    qae := data.getLsbD 15
    submitter := if s.mgmt.submits data then some who else s.submitter
    ownership := if s.mgmt.submits data then markSubmitted who s.ownership else s.ownership
    dirState := if s.mgmt.submits data then s.dirState.submitted else s.dirState }

/-- The management mailbox is owned by another manager than `who` (R161). -/
def State.ownedByOther (s : State) (who : Initiator) : Bool :=
  match s.ownership with
  | some o => !decide (o.manager = who)
  | none => false

/-- A write by manager `who` to the management mailbox: while another manager owns it, ignored and OVR set
(R161). -/
def writeManagement (who : Initiator) (word : Nat) (data : Word) (s : State) : State :=
  if s.ownedByOther who then { s with mgmt := { s.mgmt with ovr := true } }
  else if word = 0 then writeManagementControl who data s
  else { s with mgmt := s.mgmt.writeWord word data }

/-- A write by initiator `i` to its own mailbox. -/
def writeInitiator (i : Initiator) (word : Nat) (data : Word) (s : State) : State :=
  if word = 0 then writeInitiatorControl i data s
  else { s with mailboxes := s.mailboxes.set i (s.mailboxes[i].writeWord word data) }

/-! ### Writes to the configuration registers (R173) -/

/-- The value lies within the register's range (R173). -/
def configInRange (reg : ConfigReg) (v : Nat) : Bool :=
  match reg with
  | .tickPeriod | .leaseLength => decide (1 ≤ v) && decide (v ≤ 65535)
  | .fenceLimit => decide (1 ≤ v) && decide (v ≤ 255)
  | .claimLimit => decide (1 ≤ v) && decide (v ≤ 256)
  | .guardLimit => decide (v ≤ granuleTop)
  | .unclaimedWrite | .readThrough => decide (v ≤ 1)
  | .managerSet => decide (v ≤ 255)

/-- The registers with one of them holding a value in its range; bit 0 of the manager set is taken as 1
(R173). -/
def ConfigRegs.set (c : ConfigRegs) (reg : ConfigReg) (v : Nat) : ConfigRegs :=
  match reg with
  | .tickPeriod => { c with tickPeriod := v }
  | .leaseLength => { c with leaseLength := v }
  | .fenceLimit => { c with fenceLimit := v }
  | .claimLimit => { c with claimLimit := v }
  | .guardLimit => { c with guardLimit := v }
  | .unclaimedWrite => { c with unclaimedClosed := decide (v = 1) }
  | .readThrough => { c with readThrough := decide (v = 1) }
  | .managerSet => { c with managerSet := BitVec.ofNat 8 v ||| 1 }

/-- A manager's write to a configuration register: it takes effect in OFF when in range, and is ignored
with the config-refusal flag set otherwise (R173). -/
def writeConfigReg (reg : ConfigReg) (data : Word) (s : State) : State :=
  if s.dirState = .off ∧ configInRange reg data.toNat = true then
    { s with config := s.config.set reg data.toNat }
  else { s with configRefused := true }

/-- A manager's write to a word of the configuration region: a register, the config-refusal flag, which a 1
in bit 0 clears in every directory state, or a reserved offset, which ignores it (R173, R174). -/
def writeConfig (word : Nat) (data : Word) (s : State) : State :=
  match configRegAt word with
  | some reg => writeConfigReg reg data s
  | none =>
    if word = refusalWord ∧ data.getLsbD 0 = true then { s with configRefused := false } else s

/-! ### A bus write (R149, R150) -/

/-- The writer has the right to write the region (R150): an initiator mailbox takes writes of its own
initiator alone, the management mailbox and the configuration registers those of managers. -/
def State.mayWrite (s : State) (who : Initiator) : Region → Bool
  | .management _ | .config _ => s.isManager who
  | .mailbox i _ => decide (who = i)
  | .status _ | .unused => true

/-- The effect of a write that is answered ready, by its region (R149). -/
def writeRegion (who : Initiator) (data : Word) (s : State) : Region → State
  | .management word => writeManagement who word data s
  | .config word => writeConfig word data s
  | .mailbox i word => writeInitiator i word data s
  | .status _ | .unused => s

/-- A bus write: an error response that changes nothing while RESETn is low (R179), by an ABSENT initiator
or without the right (R150), and otherwise ready with the effect of its location. -/
def busWrite (who : Initiator) (addr : BitVec 8) (data : Word) (s : State) : State :=
  if s.inReset || s.isAbsent who || !s.mayWrite who (regionOf addr) then s.errorResponse
  else (writeRegion who data s (regionOf addr)).readyResponse

/-- SUBMISSION (R153): word 0 written with START as 1. -/
def execSubmission (who : Initiator) (m : MailboxId) (data : Word) (s : State) :
    Host.Outcome State Fault Refusal :=
  .next (busWrite who (mailboxBase m) (data ||| 1) s)

/-- The data of a write of word 0 with START as 0. -/
def withoutStart (data : Word) : Word :=
  data &&& 0xFFFFFFFE

/-- ATTENTION_ENABLE_WRITE (R153): word 0 written with START as 0; the enables take the written bits. -/
def execAttentionEnableWrite (who : Initiator) (m : MailboxId) (data : Word) (s : State) :
    Host.Outcome State Fault Refusal :=
  .next (busWrite who (mailboxBase m) (withoutStart data) s)

/-- FLAG_CLEAR (R153): word 0 written with START as 0; each flag written as 1 is cleared.  The enables take
the written bits as in every write to word 0. -/
def execFlagClear (who : Initiator) (m : MailboxId) (data : Word) (s : State) :
    Host.Outcome State Fault Refusal :=
  .next (busWrite who (mailboxBase m) (withoutStart data) s)

/-- WINDOW_WRITE (R149): a write at any offset, with the effect of its location. -/
def execWindowWrite (who : Initiator) (addr : BitVec 8) (data : Word) (s : State) :
    Host.Outcome State Fault Refusal :=
  .next (busWrite who addr data s)

/-- CONFIG_WRITE (R173). -/
def execConfigWrite (who : Initiator) (reg : ConfigReg) (data : Word) (s : State) :
    Host.Outcome State Fault Refusal :=
  .next (busWrite who (BitVec.ofNat 8 (16 + configWord reg)) data s)

/-- CONFIG_REFUSAL_CLEAR (R174): 07Ch written with bit 0 as 1. -/
def execConfigRefusalClear (who : Initiator) (data : Word) (s : State) :
    Host.Outcome State Fault Refusal :=
  .next (busWrite who (BitVec.ofNat 8 (16 + refusalWord)) (data ||| 1) s)

/-! ### The read that takes ownership (R161) -/

/-- The length of the ownership window in microseconds (R161). -/
def windowLength : BitVec 32 := 2000

/-- A read of management word 0 by `who` takes ownership: an access answered ready, by a manager, of a
mailbox that is IDLE and has no owner (R150, R161). -/
def State.takesOwnership (s : State) (who : Initiator) : Bool :=
  !s.inReset && !s.isAbsent who && s.isManager who && !s.mgmt.busy && s.ownership.isNone

/-- TAKE_OWNERSHIP (R161): the read of management word 0, answered as any read. -/
def readManagementWord0 (who : Initiator) (s : State) : State :=
  { s with
    busOut := some (s.busRead who (mailboxBase .management))
    ownership :=
      if s.takesOwnership who then some ⟨who, s.usCount + windowLength, false⟩ else s.ownership }

/-- TAKE_OWNERSHIP (R161). -/
def execTakeOwnership (who : Initiator) (s : State) : Host.Outcome State Fault Refusal :=
  .next (readManagementWord0 who s)

end Sys2Proof.Machine
end

