-- ==== Sys2Proof/Machine/Check.lean ====
section
/-! DEFINITION. The check port (chapter 6): the verdict table and the violation capture. -/

namespace Sys2Proof.Machine

/-- The number of a record that covers the granule and has the property; the lowest one (R3). -/
def coveredBy (claims : Claims) (granule : Nat) (p : Claim → Bool) : Option ClaimNo :=
  (claims.find? fun e => e.2.covers granule && p e.2).map (·.1)

/-- The record is DRAINING_OUT. -/
def Claim.isDrainingOut (c : Claim) : Bool :=
  match c.phase with
  | .drainingOut _ => true
  | .held | .drainingDown _ | .quarantined => false

/-- The record is DRAINING_DOWN. -/
def Claim.isDrainingDown (c : Claim) : Bool :=
  match c.phase with
  | .drainingDown _ => true
  | .held | .drainingOut _ | .quarantined => false

/-- The record is HELD EXCLUSIVE. -/
def Claim.heldExclusive (c : Claim) : Bool :=
  decide (c.phase = .held) && decide (c.mode = .exclusive)

/-- The answer to a query: PASS, RETRY, or FAULT with its capture reason (R120). -/
inductive Judgement where
  | pass
  | retry
  | fault (reason : CaptureReason)
  deriving DecidableEq, Repr

/-- Lines 14 to 18 of the verdict table: no record but HELD SHARED ones covers the granule (R130, R131). -/
def judgeUnguarded (cfg : ConfigRegs) (claims : Claims) (granule : Nat) (kind : AccessKind) : Judgement :=
  match coveredBy claims granule (fun _ => true), kind with
  | some _, .read => .pass
  | some _, .write => .fault .sharedWrite
  | none, .read => .pass
  | none, .write => if cfg.unclaimedClosed then .fault .unclaimedWrite else .pass

/-- Lines 11 to 18: no draining or quarantined record covers the granule (R128). -/
def judgeHeld (cfg : ConfigRegs) (claims : Claims) (who : Initiator) (granule : Nat) (kind : AccessKind) :
    Judgement :=
  match coveredBy claims granule (fun c => c.heldExclusive && decide (c.holder = who)) with
  | some _ => .pass
  | none =>
    match coveredBy claims granule Claim.heldExclusive with
    | some n =>
      if kind = .read ∧ cfg.readThrough = true then .pass else .fault (.heldByOther n)
    | none => judgeUnguarded cfg claims granule kind

/-- Lines 8 to 18: no quarantined or DRAINING_OUT record covers the granule (R127). -/
def judgeDown (cfg : ConfigRegs) (claims : Claims) (who : Initiator) (granule : Nat) (kind : AccessKind) :
    Judgement :=
  match coveredBy claims granule (fun c => c.isDrainingDown && decide (c.holder = who)) with
  | some n =>
    match kind with
    | .read => .pass
    | .write => .fault (.downgraded n)
  | none =>
    match coveredBy claims granule Claim.isDrainingDown with
    | some _ => .retry
    | none => judgeHeld cfg claims who granule kind

/-- Lines 5 to 18: a query of a present initiator that is not LAPSED, within the guarded range (R125,
R126). -/
def judgeRecords (cfg : ConfigRegs) (claims : Claims) (who : Initiator) (granule : Nat)
    (kind : AccessKind) : Judgement :=
  match coveredBy claims granule (fun c => decide (c.phase = .quarantined)) with
  | some n => .fault (.quarantine n)
  | none =>
    match coveredBy claims granule (fun c => c.isDrainingOut && decide (c.holder = who)) with
    | some n => .fault (.released n)
    | none =>
      match coveredBy claims granule Claim.isDrainingOut with
      | some _ => .retry
      | none => judgeDown cfg claims who granule kind

/-- The verdict table (R120), lines 1 to 4 here. -/
def State.judgeQuery (s : State) (who : Initiator) (granule : Granule) (kind : AccessKind) : Judgement :=
  if s.dirState = .off then .pass
  else if s.tables.inits[who].state = .absent then .fault .absent
  else if s.config.guardLimit < granule.toNat then .pass
  else if s.tables.inits[who].state = .lapsed then .fault .lapsed
  else judgeRecords s.config s.tables.claims who granule.toNat kind

/-- The verdict of a judgement, as VERDICT[1:0] drives it (R118). -/
def Judgement.verdict : Judgement → Verdict
  | .pass => .pass
  | .retry => .retry
  | .fault _ => .fault

/-- A FAULT at the capture: latched when absent, and otherwise the overflow flag is set (R134). -/
def latchCapture (c : Capture) (s : State) : State :=
  match s.capture with
  | none => { s with capture := some c }
  | some _ => { s with overflow := true }

/-- The effect of a judged query: the verdict driven, and a FAULT at the capture (R118, R134). -/
def answerQuery (who : Initiator) (granule : Granule) (kind : AccessKind) (j : Judgement) (s : State) :
    State :=
  match j with
  | .pass => { s with verdictOut := some .pass }
  | .retry => { s with verdictOut := some .retry }
  | .fault reason => latchCapture ⟨who, granule, kind, reason⟩ { s with verdictOut := some .fault }

/-- A check query taken (R118); while RESETn is low it receives no verdict (R179). -/
def takeQuery (who : Initiator) (granule : Granule) (kind : AccessKind) (s : State) : State :=
  if s.inReset then { s with verdictOut := none }
  else answerQuery who granule kind (s.judgeQuery who granule kind) s

/-- CHECK_QUERY (R120). -/
def execCheckQuery (who : Initiator) (granule : Granule) (kind : AccessKind) (s : State) :
    Host.Outcome State Fault Refusal :=
  .next (takeQuery who granule kind s)

end Sys2Proof.Machine
end

