-- ==== Sys2Proof/Machine/ClaimRequests.lean ====
section
/-! DEFINITION. The requests that take, change and retire claims (chapter 2): CLAIM, UPGRADE, DOWNGRADE,
RELEASE; and those that end a wait (chapter 3): CANCEL and TAKE-NOTICE. -/

namespace Sys2Proof.Machine

/-! ### CLAIM (R26 to R34) -/

/-- The span overlaps a record of the requester in HELD, DRAINING_DOWN or DRAINING_OUT, or a waiter of the
requester (R29).  QUARANTINED records take no part. -/
def selfOverlaps (tb : Tables) (i : Initiator) (span : Span) : Bool :=
  (tb.claims.any fun e =>
      decide (e.2.holder = i) && !decide (e.2.phase = .quarantined) && span.overlaps e.2.span)
    || tb.queue.any fun w => decide (w.initiator = i) && span.overlaps w.span

/-- The waiter a CLAIM would make, under the ticket the counter would issue (R34, R47). -/
def claimWaiter (tb : Tables) (i : Initiator) (mode : Mode) (w : RequestWords) : Waiter where
  ticket := issuedTicket tb
  initiator := i
  kind := .claim mode
  span := claimSpan w
  tag := tagOperand w
  remaining := startRemaining (waitLimit w)

/-- A CLAIM that is not granted at once (R33, R34): refused at wait limit 0, TABLE_FULL when the lack of a
FREE record is the only obstacle and CONFLICT otherwise, and else offered to the wait queue. -/
def claimNotGranted (tb : Tables) (v : Waiter) (limit : Nat) : Tables × Reply :=
  if limit = 0 then
    (tb, .bare (if contended tb.claims tb.queue v then .conflict else .tableFull))
  else offerWaiter tb v

/-- A CLAIM of known mode through the checks of R27. -/
def judgeClaimMode (cfg : ConfigRegs) (i : Initiator) (w : RequestWords) (tb : Tables) (mode : Mode) :
    Tables × Reply :=
  if (claimSpan w).legal cfg.guardLimit = false then (tb, .bare .range)
  else if selfOverlaps tb i (claimSpan w) then (tb, .bare .selfOverlap)
  else if cfg.claimLimit ≤ claimCount tb i then (tb, .bare .limit)
  else
    match judgeWaiter tb.claims tb.queue (claimWaiter tb i mode w) with
    | some (n, c) => ({ tb with claims := tb.claims.put n c }, .plain .granted (BitVec.ofNat 16 n.val))
    | none => claimNotGranted tb (claimWaiter tb i mode w) (waitLimit w)

/-- CLAIM past the gate (R22, R27). -/
def judgeClaim : InitiatorJudge := fun cfg i w tb =>
  match modeOperand w with
  | none => (tb, .bare .badRequest)
  | some mode => judgeClaimMode cfg i w tb mode

/-- CLAIM taken (R27). -/
def execClaim (s : State) : Host.Outcome State Fault Refusal :=
  .next (takeInitiator .claim judgeClaim s)

/-! ### UPGRADE (R35 to R37, R63) -/

/-- The waiter an UPGRADE of record `n` would make (R37, R47). -/
def upgradeWaiter (tb : Tables) (i : Initiator) (n : ClaimNo) (c : Claim) (w : RequestWords) : Waiter where
  ticket := issuedTicket tb
  initiator := i
  kind := .upgrade n
  span := c.span
  tag := c.tag
  remaining := startRemaining (waitLimit w)

/-- The grant test of an UPGRADE that reaches step 5 of R35: granted at once unless that closes a cycle
(R36, R63); otherwise CONFLICT at wait limit 0, and else offered to the wait queue (R37). -/
def judgeUpgradeStep5 (i : Initiator) (w : RequestWords) (tb : Tables) (n : ClaimNo) (c : Claim) :
    Tables × Reply :=
  let v := upgradeWaiter tb i n c w
  if contended tb.claims (aheadOf tb.queue v) v = false then
    let claims := tb.claims.put n { c with mode := .exclusive, upgradeTicket := none }
    if hasCycle (waitPairs claims tb.queue) then (tb, .bare .deadlock)
    else ({ tb with claims := claims }, .plain .granted (BitVec.ofNat 16 n.val))
  else if waitLimit w = 0 then (tb, .bare .conflict)
  else offerWaiter tb v

/-- UPGRADE past the gate (R22, R35). -/
def judgeUpgrade : InitiatorJudge := fun _ i w tb =>
  match claimOperand w with
  | none => (tb, .bare .badRequest)
  | some n =>
    match tb.claims.get n with
    | none => (tb, .bare .notHolder)
    | some c =>
      if c.holder ≠ i then (tb, .bare .notHolder)
      else
        match c.phase, c.mode with
        | .drainingOut _, _ => (tb, .bare .notHolder)
        | .quarantined, _ => (tb, .bare .quarantined)
        | .held, .exclusive => (tb, .bare .badMode)
        | .drainingDown _, _ => (tb, .bare .badPhase)
        | .held, .shared =>
          if c.upgradeTicket.isSome then (tb, .bare .badPhase) else judgeUpgradeStep5 i w tb n c

/-- UPGRADE taken (R35). -/
def execUpgrade (s : State) : Host.Outcome State Fault Refusal :=
  .next (takeInitiator .upgrade judgeUpgrade s)

/-! ### DOWNGRADE (R38) -/

/-- DOWNGRADE past the gate (R22, R38): a HELD EXCLUSIVE record becomes DRAINING_DOWN SHARED PENDING, and
the requester joins the fence queue (R10, R41). -/
def judgeDowngrade : InitiatorJudge := fun _ i w tb =>
  match claimOperand w with
  | none => (tb, .bare .badRequest)
  | some n =>
    match tb.claims.get n with
    | none => (tb, .bare .notHolder)
    | some c =>
      if c.holder ≠ i then (tb, .bare .notHolder)
      else
        match c.phase, c.mode with
        | .held, .exclusive =>
          ({ tb with
              claims := tb.claims.put n { c with phase := .drainingDown .pending, mode := .shared }
              fenceQueue := appendFence tb.fenceQueue i },
            .bare .done)
        | .held, .shared => (tb, .bare .badMode)
        | .drainingDown _, _ => (tb, .bare .badPhase)
        | .quarantined, _ => (tb, .bare .quarantined)
        | .drainingOut _, _ => (tb, .bare .notHolder)

/-- DOWNGRADE taken (R38). -/
def execDowngrade (s : State) : Host.Outcome State Fault Refusal :=
  .next (takeInitiator .downgrade judgeDowngrade s)

/-! ### RELEASE (R39, R40) -/

/-- The withdrawal of the UPGRADE waiter with this ticket, when its record, of tag `tag`, is released by
`i`: the waiter leaves the queue and a WITHDRAWN notice is appended (R40). -/
def withdrawWaiter (tb : Tables) (i : Initiator) (tag : Tag) : Option Ticket → Tables
  | none => tb
  | some t =>
    { tb with
      queue := tb.queue.filter fun v => !decide (v.ticket = t)
      inits := appendNotice tb.inits i ⟨t, .withdrawn, tag⟩ }

/-- RELEASE of a HELD SHARED record: it becomes FREE, its UPGRADE waiter is withdrawn, and a grant pass
runs (R40). -/
def releaseShared (tb : Tables) (i : Initiator) (n : ClaimNo) (c : Claim) : Tables :=
  grantPass (withdrawWaiter { tb with claims := tb.claims.free n } i c.tag c.upgradeTicket)

/-- RELEASE past the gate (R22, R39, R40). -/
def judgeRelease : InitiatorJudge := fun _ i w tb =>
  match claimOperand w with
  | none => (tb, .bare .badRequest)
  | some n =>
    match tb.claims.get n with
    | none => (tb, .bare .notHolder)
    | some c =>
      if c.holder ≠ i then (tb, .bare .notHolder)
      else
        match c.phase, c.mode with
        | .held, .shared => (releaseShared tb i n c, .bare .done)
        | .held, .exclusive =>
          ({ tb with
              claims := tb.claims.put n { c with phase := .drainingOut .pending }
              fenceQueue := appendFence tb.fenceQueue i },
            .bare .done)
        | .drainingDown stage, _ =>
          ({ tb with claims := tb.claims.put n { c with phase := .drainingOut stage } }, .bare .done)
        | .quarantined, _ => (tb, .bare .quarantined)
        | .drainingOut _, _ => (tb, .bare .notHolder)

/-- RELEASE taken (R39). -/
def execRelease (s : State) : Host.Outcome State Fault Refusal :=
  .next (takeInitiator .release judgeRelease s)

/-! ### CANCEL (R59) -/

/-- The requester's waiter with this ticket; the ticket 0 names none (R59). -/
def findWaiter (queue : List Waiter) (i : Initiator) (t : Ticket) : Option Waiter :=
  if t = 0 then none else queue.find? fun v => decide (v.ticket = t) && decide (v.initiator = i)

/-- The tables without the cancelled waiter, its record's upgrade ticket removed, after the grant pass
(R59). -/
def cancelTables (tb : Tables) (v : Waiter) : Tables :=
  grantPass { tb with
    claims := setUpgradeTicket tb.claims v none
    queue := tb.queue.filter fun x => !decide (x.ticket = v.ticket) }

/-- CANCEL past the gate (R59). -/
def judgeCancel : InitiatorJudge := fun _ i w tb =>
  match ticketOperand w with
  | none => (tb, .bare .badRequest)
  | some t =>
    match findWaiter tb.queue i t with
    | some v => (cancelTables tb v, .bare .done)
    | none => (tb, .bare .notWaiting)

/-- CANCEL taken (R59). -/
def execCancel (s : State) : Host.Outcome State Fault Refusal :=
  .next (takeInitiator .cancel judgeCancel s)

/-! ### TAKE-NOTICE (R69) -/

/-- TAKE-NOTICE past the gate (R69): the oldest notice is removed and returned, or EMPTY. -/
def judgeTakeNotice : InitiatorJudge := fun _ i _ tb =>
  match tb.inits[i].notices with
  | [] => (tb, .bare .empty)
  | n :: rest =>
    ({ tb with inits := tb.inits.set i { tb.inits[i] with notices := rest } },
      ⟨.done, n.ticket, #v[noticeWord n, 0, 0, 0, 0, 0, 0, 0, 0]⟩)

/-- TAKE-NOTICE taken (R69). -/
def execTakeNotice (s : State) : Host.Outcome State Fault Refusal :=
  .next (takeInitiator .takeNotice judgeTakeNotice s)

end Sys2Proof.Machine
end

