-- ==== Sys2Proof/Machine/Initiators.lean ====
section
/-! DEFINITION. The requests about an initiator's registration (chapter 4): REGISTER, UNREGISTER, RENEW,
and EVICT from the management mailbox; and the requests of an undefined kind (R152). -/

namespace Sys2Proof.Machine

/-- REGISTER past the gate (R74, R75): ALREADY with the generation from an ACTIVE initiator, and otherwise
ACTIVE with a full lease and the next generation. -/
def judgeRegister : InitiatorJudge := fun cfg i _ tb =>
  match tb.inits[i].state with
  | .active _ => (tb, .plain .already (tb.inits[i].generation.setWidth 16))
  | .unregistered | .lapsed | .absent =>
    let g := nextGeneration tb.inits[i].generation
    ({ tb with inits := tb.inits.set i { tb.inits[i] with
        state := .active cfg.leaseLength
        generation := g } },
      .plain .done (g.setWidth 16))

/-- REGISTER taken (R74). -/
def execRegister (s : State) : Host.Outcome State Fault Refusal :=
  .next (takeInitiator .register judgeRegister s)

/-- UNREGISTER past the gate (R77, R78): the initiator leaves ACTIVE for UNREGISTERED, with a grant pass if
it had a live record or a waiter. -/
def judgeUnregister : InitiatorJudge := fun _ i _ tb =>
  (grantPassIf (hasStake tb i) (leaveActive tb i .unregistered), .bare .done)

/-- UNREGISTER taken (R77). -/
def execUnregister (s : State) : Host.Outcome State Fault Refusal :=
  .next (takeInitiator .unregister judgeUnregister s)

/-- RENEW past the gate (R76): nothing beside the lease restart. -/
def judgeRenew : InitiatorJudge := fun _ _ _ tb =>
  (tb, .bare .done)

/-- RENEW taken (R76). -/
def execRenew (s : State) : Host.Outcome State Fault Refusal :=
  .next (takeInitiator .renew judgeRenew s)

/-- A request of an undefined kind, or of the other class, taken from any mailbox: BAD_REQUEST in every
directory state and initiator state, with the lease restart of an ACTIVE requester (R20, R21, R152). -/
def serveUndefined (s : State) : State :=
  match s.offered .undefined with
  | some (.initiator i, _) =>
    State.complete { s with tables := s.leaseRestarted i } (.initiator i) (.bare .badRequest)
  | some (.management, _) => s.complete .management (.bare .badRequest)
  | none => s

/-- The take of a request of an undefined kind, when the arbiter offers one. -/
def takeUndefined (s : State) : State :=
  serveUndefined (s.readied .undefined)

/-- A request of an undefined kind taken (R152). -/
def execUndefinedRequestKind (s : State) : Host.Outcome State Fault Refusal :=
  .next (takeUndefined s)

/-- The lapse of initiator `i` by EVICT, with its own grant pass (R84, R85). -/
def evictTables (tb : Tables) (i : Initiator) : Tables :=
  grantPassIf (hasStake tb i) (leaveActive tb i .lapsed)

/-- EVICT (R84). -/
def judgeEvict : ManagementJudge := fun w s =>
  if s.dirState = .off then (s, .bare .off)
  else
    match initiatorOperand w with
    | none => (s, .bare .badRequest)
    | some i =>
      match s.tables.inits[i].state with
      | .active _ => ({ s with tables := evictTables s.tables i }, .bare .done)
      | .absent | .unregistered | .lapsed => (s, .bare .notActive)

/-- EVICT taken (R84). -/
def execEvict (s : State) : Host.Outcome State Fault Refusal :=
  .next (takeManagement .evict judgeEvict s)

end Sys2Proof.Machine
end

