-- ==== Sys2Proof/Machine/Inspection.lean ====
section
/-! DEFINITION. LOOKUP and the three inspection requests (chapter 7).  None of them changes a table. -/

namespace Sys2Proof.Machine

/-! ### LOOKUP (R138 to R140) -/

/-- The records a LOOKUP selects: not FREE, at or above the cursor, overlapping the span; ascending, as the
table stands (R139). -/
def lookupSelected (claims : Claims) (span : Span) (cursor : Nat) : Claims :=
  claims.filter fun e => decide (cursor ≤ e.1.val) && span.overlaps e.2.span

/-- The next cursor after these records were returned: the claim number after the last, or 256 when none is
returned (R140).  After record 255 it is 256 as well. -/
def lookupNext (returned : Claims) : Nat :=
  match returned.getLast? with
  | some e => e.1.val + 1
  | none => 256

/-- The reply to a LOOKUP that selects these records: the first four returned, MORE when a further one is
selected (R139, R140). -/
def lookupReply (selected : Claims) : Reply where
  outcome := if 4 < selected.length then .more else .done
  primary := lookupPrimary (selected.take 4).length (lookupNext (selected.take 4))
  records := lookupRecords (selected.take 4)

/-- LOOKUP past the gate (R138). -/
def judgeLookup : InitiatorJudge := fun cfg _ w tb =>
  if 255 < lookupCursor w then (tb, .bare .badRequest)
  else if (lookupSpan w).legal cfg.guardLimit = false then (tb, .bare .range)
  else (tb, lookupReply (lookupSelected tb.claims (lookupSpan w) (lookupCursor w)))

/-- LOOKUP taken (R138). -/
def execLookup (s : State) : Host.Outcome State Fault Refusal :=
  .next (takeInitiator .lookup judgeLookup s)

/-! ### INSPECT-CLAIM (R143) -/

/-- INSPECT-CLAIM (R143): taken in every directory state, and never refused for the state of the table. -/
def judgeInspectClaim : ManagementJudge := fun w s =>
  match claimOperand w with
  | none => (s, .bare .badRequest)
  | some n => (s, ⟨.done, BitVec.ofNat 16 n.val, claimRecords (s.tables.claims.get n)⟩)

/-- INSPECT-CLAIM taken (R143). -/
def execInspectClaim (s : State) : Host.Outcome State Fault Refusal :=
  .next (takeManagement .inspectClaim judgeInspectClaim s)

/-! ### INSPECT-INITIATOR (R144) -/

/-- INSPECT-INITIATOR (R144): an ABSENT initiator and a number above 7 are refused. -/
def judgeInspectInitiator : ManagementJudge := fun w s =>
  match initiatorOperand w with
  | none => (s, .bare .badRequest)
  | some i =>
    if s.tables.inits[i].state = .absent then (s, .bare .badRequest)
    else
      (s, ⟨.done, s.tables.inits[i].generation.setWidth 16,
        initiatorRecords i s.tables.inits[i] (heldCount s.tables.claims i) (waiterCount s.tables.queue i)⟩)

/-- INSPECT-INITIATOR taken (R144). -/
def execInspectInitiator (s : State) : Host.Outcome State Fault Refusal :=
  .next (takeManagement .inspectInitiator judgeInspectInitiator s)

/-! ### INSPECT-WAITER (R146) -/

/-- INSPECT-WAITER (R146): the waiter at a position, or EMPTY with the queue length. -/
def judgeInspectWaiter : ManagementJudge := fun w s =>
  if 63 < w.w2.toNat then (s, .bare .badRequest)
  else
    match s.tables.queue[w.w2.toNat]? with
    | none => (s, ⟨.empty, 0, waiterRecords w.w2.toNat s.tables.queue.length none⟩)
    | some v => (s, ⟨.done, v.ticket, waiterRecords w.w2.toNat s.tables.queue.length (some v)⟩)

/-- INSPECT-WAITER taken (R146). -/
def execInspectWaiter (s : State) : Host.Outcome State Fault Refusal :=
  .next (takeManagement .inspectWaiter judgeInspectWaiter s)

end Sys2Proof.Machine
end

