-- ==== Sys2Proof/Machine/Management.lean ====
section
/-! DEFINITION. The management requests that move the directory (chapter 9): ENABLE, DISABLE, DORMANT; and
those that clear what the part reports: CLEAR-QUARANTINE (chapter 5) and CLEAR-CAPTURE (chapter 6). -/

namespace Sys2Proof.Machine

/-- ENABLE (R167).  It is never taken in DORMANT; there the model answers ALREADY (log entry 12). -/
def judgeEnable : ManagementJudge := fun _ s =>
  match s.dirState with
  | .off | .quiescing => ({ s with dirState := .on }, .bare .done)
  | .on | .dormant => (s, .bare .already)

/-- ENABLE taken (R167). -/
def execEnable (s : State) : Host.Outcome State Fault Refusal :=
  .next (takeManagement .enable judgeEnable s)

/-- The teardown (R168): the tables cleared, the fence withdrawn without an outcome and its queue emptied
(R109), the capture, the overflow flag and the config-refusal flag cleared, the directory OFF.  No issue is
due any more, so no delivered tick waits for one. -/
def teardown (s : State) : State :=
  { s with
    tables := teardownTables s.tables
    flight := .idle
    fenceTickHeld := false
    capture := none
    overflow := false
    configRefused := false
    dirState := .off }

/-- DISABLE (R168).  It is never taken in DORMANT; there the model makes the teardown (log entry 12). -/
def judgeDisable : ManagementJudge := fun _ s =>
  match s.dirState with
  | .off => (s, .bare .already)
  | .on | .quiescing | .dormant => (teardown s, .bare .done)

/-- DISABLE taken (R168). -/
def execDisable (s : State) : Host.Outcome State Fault Refusal :=
  .next (takeManagement .disable judgeDisable s)

/-- DORMANT (R170).  It is never taken in DORMANT; there the model answers ALREADY (log entry 12). -/
def judgeDormant : ManagementJudge := fun _ s =>
  match s.dirState with
  | .off => (s, .bare .off)
  | .on => ({ s with dirState := .quiescing }, .bare .done)
  | .quiescing | .dormant => (s, .bare .already)

/-- DORMANT taken (R170).  Its completion decides whether the directory goes on to DORMANT (R171). -/
def execDormant (s : State) : Host.Outcome State Fault Refusal :=
  .next (takeManagement .dormant judgeDormant s)

/-- CLEAR-QUARANTINE (R114): a QUARANTINED record becomes FREE and a grant pass runs. -/
def judgeClearQuarantine : ManagementJudge := fun w s =>
  if s.dirState = .off then (s, .bare .off)
  else
    match claimOperand w with
    | none => (s, .bare .badRequest)
    | some n =>
      if (s.tables.claims.get n).map Claim.phase = some .quarantined then
        ({ s with tables := grantPass { s.tables with claims := s.tables.claims.free n } }, .bare .done)
      else (s, .bare .notQuarantined)

/-- CLEAR-QUARANTINE taken (R114). -/
def execClearQuarantine (s : State) : Host.Outcome State Fault Refusal :=
  .next (takeManagement .clearQuarantine judgeClearQuarantine s)

/-- CLEAR-CAPTURE (R135): the capture and the overflow flag are returned and cleared, in every directory
state. -/
def judgeClearCapture : ManagementJudge := fun _ s =>
  ({ s with capture := none, overflow := false }, ⟨.done, 0, captureRecords s.capture s.overflow⟩)

/-- CLEAR-CAPTURE taken (R135). -/
def execClearCapture (s : State) : Host.Outcome State Fault Refusal :=
  .next (takeManagement .clearCapture judgeClearCapture s)

end Sys2Proof.Machine
end

