-- ==== Sys2Proof/Machine/Reset.lean ====
section
/-! DEFINITION. RESETn (R178, R179): the state every block takes at the release, from the straps, and what
the fall of RESETn does. -/

namespace Sys2Proof.Machine

/-- The manager set after reset: every present initiator with MGRALL high, initiator 0 alone with it low
(R178). -/
def resetManagers (present : PresentCount) (mgrall : Bool) : BitVec 8 :=
  if mgrall then
    match present with
    | .two => 0x03
    | .four => 0x0F
    | .eight => 0xFF
  else 0x01

/-- The record of initiator `i` after reset: UNREGISTERED below the present count, ABSENT from there, with
generation 0 and no notice (R70). -/
def resetInit (present : PresentCount) (i : Nat) : InitRecord :=
  ⟨if i < present.count then .unregistered else .absent, 0, []⟩

/-- The configuration registers after reset (R173). -/
def resetConfig (present : PresentCount) (mgrall : Bool) : ConfigRegs where
  tickPeriod := 1000
  leaseLength := 1000
  fenceLimit := 50
  claimLimit := 32
  guardLimit := 1048575
  unclaimedClosed := false
  readThrough := false
  managerSet := resetManagers present mgrall

/-- The tables after reset: every record FREE, both queues empty, the ticket counter 1 (R179). -/
def resetTables (present : PresentCount) : Tables where
  claims := []
  queue := []
  inits := #v[resetInit present 0, resetInit present 1, resetInit present 2, resetInit present 3,
    resetInit present 4, resetInit present 5, resetInit present 6, resetInit present 7]
  ticketCounter := 1
  fenceQueue := []

/-- An IDLE mailbox with every word 0 (R164). -/
def resetMailbox : Mailbox :=
  ⟨⟨0, 0, 0, 0⟩, none, false, false, false, false, Vector.replicate 10 0⟩

/-- The release of RESETn with the strap pins at these levels: the straps are latched and every block takes
its reset state, whatever it held (R178, R179).  The commands that wait are outside the part and stay. -/
def releaseReset (pres : BitVec 2) (autoon mgrall : Bool) (s : State) : State where
  mailboxes := Vector.replicate 8 resetMailbox
  mgmt := resetMailbox
  ntfe := Vector.replicate 8 false
  cape := false
  qae := false
  submitter := none
  ownership := none
  arbiter := .management
  tables := resetTables (presentOf pres)
  flight := .idle
  fenceTick := false
  fenceTickHeld := false
  capture := none
  overflow := false
  verdictOut := none
  usCount := 0
  countdown := 1000
  engineTick := false
  dirState := if autoon then .on else .off
  config := resetConfig (presentOf pres) mgrall
  configRefused := false
  straps := ⟨presentOf pres, autoon, mgrall⟩
  inReset := false
  busOut := none
  pending := s.pending

/-- RESETN (R179). -/
def execResetn (pres : BitVec 2) (autoon mgrall : Bool) (s : State) : Host.Outcome State Fault Refusal :=
  .next (releaseReset pres autoon mgrall s)

/-- A mailbox whose submission, if any, is abandoned (R164). -/
def Mailbox.abandon (mb : Mailbox) : Mailbox :=
  { mb with captured := none }

/-- The fall of RESETn (R179): no event is taken until the release, every BUSY submission is lost (R164),
the fence in flight is abandoned and its request falls (R110), verdict valid is low.  The attention lines
fall because `State.atn` and `State.atnm` are low while RESETn is.  What else the blocks hold cannot be
observed before the release, which replaces it (log entry 10). -/
def assertReset (s : State) : State :=
  { s with
    mailboxes := #v[s.mailboxes[0].abandon, s.mailboxes[1].abandon, s.mailboxes[2].abandon,
      s.mailboxes[3].abandon, s.mailboxes[4].abandon, s.mailboxes[5].abandon, s.mailboxes[6].abandon,
      s.mailboxes[7].abandon]
    mgmt := s.mgmt.abandon
    submitter := none
    flight := .idle
    verdictOut := none
    inReset := true }

/-- RESETN_ASSERTED (R179). -/
def execResetnAsserted (s : State) : Host.Outcome State Fault Refusal :=
  .next (assertReset s)

end Sys2Proof.Machine
end

