-- ==== Sys2Proof/Machine/Timebase.lean ====
section
/-! DEFINITION. Time (chapter 9, and the ticks of chapters 3 and 4): REFCLK with the microsecond count, the
tick countdown and the ownership window; and the ticks that the directory engine takes. -/

namespace Sys2Proof.Machine

/-! ### REFCLK (R175 to R177) -/

/-- The tick countdown after `n` periods of REFCLK, at most as many as it holds: when it reaches 0 it is reloaded
from the tick period in force (R176). -/
def State.countdownAfter (s : State) (n : Nat) : Nat :=
  if n < s.countdown then s.countdown - n else s.config.tickPeriod

/-- The microseconds left in the ownership window, compared through the wrap of the count; none without an
owner, and none once the owner has submitted, when the window takes no part (R162, R175). -/
def State.windowLeft (s : State) : Option Nat :=
  match s.ownership with
  | some o => if o.submitted then none else some (o.windowEnd - s.usCount).toNat
  | none => none

/-- The ownership window ends within `n` periods (R162). -/
def State.windowEndsWithin (s : State) (n : Nat) : Bool :=
  match s.windowLeft with
  | some left => decide (left ≤ n)
  | none => false

/-- A tick falls at the last of `n` periods, at most as many as the countdown holds, and is delivered to the blocks:
not in DORMANT, where it is withheld (R176, R177). -/
def State.delivers (s : State) (n : Nat) : Bool :=
  decide (s.countdown ≤ n) && !decide (s.dirState = .dormant)

/-- `n` periods of REFCLK, at most as many as the countdown holds: the microsecond count advances and wraps, the
countdown runs and reloads, a tick that falls is delivered to the two blocks, and the ownership ends when its
window does.  A tick that falls while an issue is due waits for that issue (R97). -/
def advance (n : Nat) (s : State) : State :=
  { s with
    usCount := s.usCount + BitVec.ofNat 32 n
    countdown := s.countdownAfter n
    engineTick := s.engineTick || s.delivers n
    fenceTick := s.fenceTick || s.delivers n
    fenceTickHeld := if s.delivers n then s.issueDue else s.fenceTickHeld
    ownership := if s.windowEndsWithin n then none else s.ownership }

/-- Time goes on by `n` periods of REFCLK, at most as many as the countdown holds: the ticks that wait at the blocks
are taken first (log entry 6).  RESETn low: REFCLK advances no count (R179). -/
def elapse (n : Nat) (s : State) : State :=
  if s.inReset then s else advance n (settle s)

/-- What a step on an empty queue does: one period of REFCLK (log entry 2). -/
def refclk (s : State) : State :=
  elapse 1 s

/-- REFCLK runs until the countdown reaches 0 and the tick falls (R176; log entry 3). -/
def runToTick (s : State) : State :=
  elapse s.countdown s

/-- TICK (R176). -/
def execTick (s : State) : Host.Outcome State Fault Refusal :=
  .next (runToTick s)

/-- REFCLK runs over the next ticks. -/
def runTicks : Nat → State → State
  | 0, s => s
  | k + 1, s => runTicks k (runToTick s)

/-- How many ticks fall before `left` periods have passed, one that falls with the last of them left out (R176). -/
def State.ticksBefore (s : State) (left : Nat) : Nat :=
  if left ≤ s.countdown then 0 else 1 + (left - s.countdown - 1) / s.config.tickPeriod

/-- REFCLK runs over the periods that are left in a running ownership window, at most as many as the countdown
holds. -/
def endWindow (s : State) : State :=
  match s.windowLeft with
  | some left => elapse left s
  | none => s

/-- REFCLK runs until the ownership window ends, when one is running, with the ticks that fall on the way (R162;
log entry 3). -/
def runToWindowEnd (s : State) : State :=
  match s.windowLeft with
  | some left => endWindow (runTicks (s.ticksBefore left) s)
  | none => s

/-- OWNERSHIP_WINDOW_END (R162). -/
def execOwnershipWindowEnd (s : State) : Host.Outcome State Fault Refusal :=
  .next (runToWindowEnd s)

/-! ### Ticks at the directory engine (R86) -/

/-- DIRECTORY_TICK (R86). -/
def execDirectoryTick (s : State) : Host.Outcome State Fault Refusal :=
  .next (takeEngineTick s)

/-- The waiter with this ticket expires on the next tick (R57). -/
def waiterExpiresNext (tb : Tables) (t : Ticket) : Bool :=
  tb.queue.any fun w => decide (w.ticket = t) && w.expires

/-- WAIT_EXPIRY (R57): the tick on which the waiter with this ticket expires, whole, as R86 makes it one
event; nothing when the next tick does not bring that waiter to 0 (log entries 4 and 5). -/
def execWaitExpiry (t : Ticket) (s : State) : Host.Outcome State Fault Refusal :=
  .next (if waiterExpiresNext s.tables t then takeEngineTick s else s)

/-- LAPSE (R81): the tick on which initiator `i`'s lease reaches 0, whole, as R86 makes it one event;
nothing when the next tick does not bring that lease to 0 (log entries 4 and 5). -/
def execLapse (i : Initiator) (s : State) : Host.Outcome State Fault Refusal :=
  .next (if leaseEnds s.tables i then takeEngineTick s else s)

end Sys2Proof.Machine
end

