-- ==== Sys2Proof/Machine/Dispatch.lean ====
section
/-! DEFINITION. The dispatch: one arm per command, each one direct call of its meaning. -/

namespace Sys2Proof.Machine

def exec (i : Instr) (s : State) : Host.Outcome State Fault Refusal :=
  match i with
  | .register => Sys2Proof.Machine.execRegister s
  | .unregister => Sys2Proof.Machine.execUnregister s
  | .renew => Sys2Proof.Machine.execRenew s
  | .claim => Sys2Proof.Machine.execClaim s
  | .upgrade => Sys2Proof.Machine.execUpgrade s
  | .downgrade => Sys2Proof.Machine.execDowngrade s
  | .release => Sys2Proof.Machine.execRelease s
  | .cancel => Sys2Proof.Machine.execCancel s
  | .takeNotice => Sys2Proof.Machine.execTakeNotice s
  | .lookup => Sys2Proof.Machine.execLookup s
  | .undefinedRequestKind => Sys2Proof.Machine.execUndefinedRequestKind s
  | .enable => Sys2Proof.Machine.execEnable s
  | .disable => Sys2Proof.Machine.execDisable s
  | .dormant => Sys2Proof.Machine.execDormant s
  | .evict => Sys2Proof.Machine.execEvict s
  | .clearQuarantine => Sys2Proof.Machine.execClearQuarantine s
  | .clearCapture => Sys2Proof.Machine.execClearCapture s
  | .inspectClaim => Sys2Proof.Machine.execInspectClaim s
  | .inspectInitiator => Sys2Proof.Machine.execInspectInitiator s
  | .inspectWaiter => Sys2Proof.Machine.execInspectWaiter s
  | .submission who m data => Sys2Proof.Machine.execSubmission who m data s
  | .attentionEnableWrite who m data => Sys2Proof.Machine.execAttentionEnableWrite who m data s
  | .flagClear who m data => Sys2Proof.Machine.execFlagClear who m data s
  | .windowWrite who addr data => Sys2Proof.Machine.execWindowWrite who addr data s
  | .takeOwnership who => Sys2Proof.Machine.execTakeOwnership who s
  | .ownershipWindowEnd => Sys2Proof.Machine.execOwnershipWindowEnd s
  | .configWrite who reg data => Sys2Proof.Machine.execConfigWrite who reg data s
  | .configRefusalClear who data => Sys2Proof.Machine.execConfigRefusalClear who data s
  | .checkQuery who granule kind => Sys2Proof.Machine.execCheckQuery who granule kind s
  | .fenceIssue => Sys2Proof.Machine.execFenceIssue s
  | .fenceDone => Sys2Proof.Machine.execFenceDone s
  | .fenceDefer => Sys2Proof.Machine.execFenceDefer s
  | .fenceAnswerOtherKind code => Sys2Proof.Machine.execFenceAnswerOtherKind code s
  | .tick => Sys2Proof.Machine.execTick s
  | .directoryTick => Sys2Proof.Machine.execDirectoryTick s
  | .fenceUnitTick => Sys2Proof.Machine.execFenceUnitTick s
  | .fenceTimerExpiry => Sys2Proof.Machine.execFenceTimerExpiry s
  | .waitExpiry ticket => Sys2Proof.Machine.execWaitExpiry ticket s
  | .lapse who => Sys2Proof.Machine.execLapse who s
  | .resetn pres autoon mgrall => Sys2Proof.Machine.execResetn pres autoon mgrall s
  | .resetnAsserted => Sys2Proof.Machine.execResetnAsserted s

end Sys2Proof.Machine
end

