-- ==== Sys2Proof/Machine/Step.lean ====
section
/-! DEFINITION. One step: the command at the front of the queue, or one period of REFCLK when the queue is
empty. -/

namespace Sys2Proof.Machine

/-- One step: the command at the front of the queue is taken and run on the state with the queue's rest; on
an empty queue one period of REFCLK passes (R175, R176; DESIGN CHOICE, log entry 2). -/
def step (s : State) : Host.Outcome State Fault Refusal :=
  match s.pending with
  | [] => .next (refclk s)
  | c :: rest => exec c { s with pending := rest }

/-- The state with the command that a word spells by the table's bits at the front of its queue; no row of
the table gives bits, so the state is unchanged. -/
def State.withFetchWord (s : State) (nbits w : Nat) : State :=
  match decodeTableWord nbits w with
  | some c => { s with pending := c :: s.pending }
  | none => s

end Sys2Proof.Machine
end

