-- ==== Sys2Proof/Safety.lean ====
section
/-! DEFINITION. What a safe run keeps: the laws that the manual states over the whole part, each as a
predicate of the state.  The manual gives most of them under the label of a rule ("The directory engine
keeps this law ..."). -/

namespace Sys2Proof.Machine

/-- The claim table is in its canonical form: claim numbers strictly rising, so each record is listed once
(log entry 8). -/
abbrev Claims.Sorted (claims : Claims) : Prop :=
  claims.Pairwise fun a b => a.1 < b.1

/-- The record is HELD SHARED. -/
def Claim.heldShared (c : Claim) : Bool :=
  decide (c.phase = .held) && decide (c.mode = .shared)

/-- The coverage law (R17): where two records cover one granule, both are HELD SHARED.  So a granule is
covered by no record, by HELD SHARED records alone, or by exactly one record. -/
def Claims.Coverage (claims : Claims) : Prop :=
  ∀ n m : ClaimNo, ∀ c d : Claim, ∀ granule : Nat,
    claims.get n = some c → claims.get m = some d → n ≠ m →
    c.covers granule = true → d.covers granule = true → c.heldShared = true ∧ d.heldShared = true

/-- The state of an ACTIVE initiator. -/
def InitState.isActive : InitState → Bool
  | .active _ => true
  | .absent | .unregistered | .lapsed => false

/-- The law of initiators that are not ACTIVE (R72): no record in HELD or DRAINING_DOWN, no waiter, no
notice. -/
def Tables.IdleLaw (tb : Tables) : Prop :=
  ∀ i : Initiator, tb.inits[i].state.isActive = false →
    (∀ e ∈ tb.claims, e.2.holder = i → e.2.live = false)
      ∧ (∀ w ∈ tb.queue, w.initiator ≠ i) ∧ tb.inits[i].notices = []

/-- The law of the fence queue (R94): no initiator twice, and initiator i exactly when some record with
holder i is draining with stage PENDING. -/
def Tables.FenceQueueLaw (tb : Tables) : Prop :=
  tb.fenceQueue.Nodup
    ∧ ∀ i : Initiator, i ∈ tb.fenceQueue ↔ ∃ e ∈ tb.claims, e.2.holder = i ∧ e.2.pendingDrain = true

/-- The initiator of the in-flight fence (R96). -/
def FenceFlight.initiator : FenceFlight → Option Initiator
  | .idle => none
  | .timed i _ | .deferred i => some i

/-- The law of the in-flight fence (R96): a draining record with stage ISSUED exists only while a fence is
in flight, and only with that fence's initiator as holder. -/
def State.FlightLaw (s : State) : Prop :=
  ∀ e ∈ s.tables.claims, e.2.issuedDrain = true → s.flight.initiator = some e.2.holder

/-- The fence laws (R94, R96) in every state in which the part takes events.  Between the fall and the
release of RESETn the fence is abandoned and no record can be observed (log entry 10). -/
def State.FenceLaws (s : State) : Prop :=
  s.tables.claims.Sorted ∧ (s.inReset = false → s.tables.FenceQueueLaw ∧ s.FlightLaw)

/-- The law of OFF (R166): every record FREE, the wait queue, the fence queue and every notice list empty,
no fence in flight, every initiator UNREGISTERED or ABSENT. -/
def State.OffLaw (s : State) : Prop :=
  s.dirState = .off →
    s.tables.claims = [] ∧ s.tables.queue = [] ∧ s.tables.fenceQueue = [] ∧ s.flight = .idle
      ∧ ∀ i : Initiator, s.tables.inits[i].notices = []
        ∧ (s.tables.inits[i].state = .unregistered ∨ s.tables.inits[i].state = .absent)

/-- While the directory is DORMANT no mailbox is BUSY and no tick waits at a block (R171, R172, R177). -/
def State.DormantLaw (s : State) : Prop :=
  s.dirState = .dormant →
    (∀ m : MailboxId, (s.mailbox m).busy = false) ∧ s.engineTick = false ∧ s.fenceTick = false

/-- The flags of a mailbox (R158): clear from a submission until the completion, and never both set. -/
def Mailbox.FlagLaw (mb : Mailbox) : Prop :=
  (mb.busy = true → mb.done = false ∧ mb.error = false) ∧ (mb.done && mb.error) = false

/-- The flags of every mailbox (R158). -/
def State.FlagLaw (s : State) : Prop :=
  ∀ m : MailboxId, (s.mailbox m).FlagLaw

/-- The initiators at or above the latched present count, and no others, are ABSENT; an ABSENT initiator
has generation 0 (R71). -/
def State.PresentLaw (s : State) : Prop :=
  ∀ i : Initiator,
    (s.tables.inits[i].state = .absent ↔ s.straps.present.count ≤ i.val)
      ∧ (s.tables.inits[i].state = .absent → s.tables.inits[i].generation = 0)

/-- The claim limit (R25): for every initiator, live records and CLAIM waiters together never exceed the
configured claim limit. -/
def State.LimitLaw (s : State) : Prop :=
  s.tables.claims.Sorted ∧ s.OffLaw
    ∧ ∀ i : Initiator, claimCount s.tables i ≤ s.config.claimLimit

/-- The capacities of the wait queue and of tickets (R46, R67). -/
def Tables.CapacityLaw (tb : Tables) : Prop :=
  tb.queue.length ≤ queueCapacity ∧ ∀ i : Initiator, openTicketCount tb i ≤ ticketCapacity

/-- The law of the two runs (R48): every UPGRADE waiter stands before every CLAIM waiter. -/
def RunsLaw (queue : List Waiter) : Prop :=
  queue.Pairwise fun a b => a.isClaim = true → b.isClaim = true

/-- Open tickets are distinct and not 0, and the ticket counter is not 0 (R65, R66). -/
def Tables.TicketLaw (tb : Tables) : Prop :=
  (openTickets tb).Nodup ∧ 0 ∉ openTickets tb ∧ tb.ticketCounter ≠ 0

/-- An UPGRADE waiter names a HELD SHARED record of its own initiator that carries its ticket, and a record
carries an upgrade ticket only while such a waiter stands (R8, R48). -/
def Tables.UpgradeLaw (tb : Tables) : Prop :=
  (∀ w ∈ tb.queue, ∀ n, w.ownRecord = some n → ∃ c, tb.claims.get n = some c ∧ c.heldShared = true
      ∧ c.holder = w.initiator ∧ c.span = w.span ∧ c.tag = w.tag ∧ c.upgradeTicket = some w.ticket)
    ∧ ∀ n c t, tb.claims.get n = some c → c.upgradeTicket = some t →
        ∃ w ∈ tb.queue, w.ownRecord = some n ∧ w.ticket = t

/-- The laws of the wait queue together: the table in its canonical form, the capacities, the two runs, the
tickets and the UPGRADE waiters.  Each rests on the others, so they are kept together. -/
structure Tables.WaitLaw (tb : Tables) : Prop where
  sorted : tb.claims.Sorted
  capacity : tb.CapacityLaw
  runs : RunsLaw tb.queue
  tickets : tb.TicketLaw
  upgrades : tb.UpgradeLaw

/-- Every waiter is blocked, judged against the waiters ahead of it (R53). -/
def AllBlocked (claims : Claims) : List Waiter → List Waiter → Prop
  | _, [] => True
  | earlier, w :: rest => blocked claims earlier w = true ∧ AllBlocked claims (earlier ++ [w]) rest

/-- The wait-for relation has no cycle (R64). -/
def Tables.NoDeadlock (tb : Tables) : Prop :=
  hasCycle (waitPairs tb.claims tb.queue) = false

/-- Initiator 0 is a manager, whatever was written (R173). -/
def State.ManagerLaw (s : State) : Prop :=
  s.isManager 0 = true

/-- The counts of time stand in their ranges (R56, R57, R79, R96, R173, R176): the tick period, the countdown, the
lease length and every lease remaining from 1 to 65,535, every wait remaining from 1 to 65,534, the fence limit
and the timer of a TIMED fence from 1 to 255; a tick that is held back is a tick that waits (R97). -/
def State.TimeLaw (s : State) : Prop :=
  (1 ≤ s.config.tickPeriod ∧ s.config.tickPeriod ≤ 65535)
    ∧ (1 ≤ s.countdown ∧ s.countdown ≤ 65535)
    ∧ (1 ≤ s.config.leaseLength ∧ s.config.leaseLength ≤ 65535)
    ∧ (∀ (i : Initiator) (l : Nat), s.tables.inits[i].state = .active l → 1 ≤ l ∧ l ≤ 65535)
    ∧ (∀ w ∈ s.tables.queue, ∀ r, w.remaining = some r → 1 ≤ r ∧ r ≤ 65534)
    ∧ (1 ≤ s.config.fenceLimit ∧ s.config.fenceLimit ≤ 255)
    ∧ (∀ i timer, s.flight = .timed i timer → 1 ≤ timer ∧ timer ≤ 255)
    ∧ (s.fenceTickHeld = true → s.fenceTick = true)

/-- The laws of the part together. -/
def State.AllLaws (s : State) : Prop :=
  s.tables.WaitLaw ∧ s.tables.claims.Coverage ∧ s.LimitLaw ∧ AllBlocked s.tables.claims [] s.tables.queue
    ∧ s.tables.NoDeadlock ∧ s.tables.IdleLaw ∧ s.FenceLaws ∧ s.OffLaw ∧ s.DormantLaw ∧ s.FlagLaw
    ∧ s.PresentLaw ∧ s.ManagerLaw ∧ s.TimeLaw

end Sys2Proof.Machine
end

