-- ==== Sys2Proof/Vocabulary.lean ====
section
/-! DEFINITION. The words in which the statements about the machine are written, taken from the manual and not
from the meanings: when a request is taken, what a completion leaves, when a request or a waiter conflicts, why a
request is refused, what the departure of an initiator leaves, and the lines of the verdict table.  Nothing the
machine runs stands here. -/

namespace Sys2Proof.Machine

/-! ### A request at its take (R155, R156) -/

/-- The arbiter hands the directory engine mailbox `m`, which holds the captured words `w` of a request of
kind `k`. -/
structure State.Offers (s : State) (m : MailboxId) (k : RequestKind) (w : RequestWords) : Prop where
  running : s.inReset = false
  chosen : s.arbiterChoice = some m
  captured : (s.mailbox m).captured = some w
  kind : requestKind m w.w1 = k

/-- A tick was delivered to a block and is not taken yet (R177; log entry 6). -/
abbrev State.TickWaits (s : State) : Prop :=
  s.engineTick = true ∨ s.fenceTick = true

/-- The completion of a request of kind `k` from mailbox `m` leaves no mailbox BUSY in a directory that is then
QUIESCING: it enters DORMANT (R170, R171). -/
abbrev State.EntersDormancy (s : State) (m : MailboxId) (k : RequestKind) : Prop :=
  ((s.dirState = .quiescing ∧ k ≠ .enable ∧ k ≠ .disable) ∨ (s.dirState = .on ∧ k = .dormant))
    ∧ ∀ x, x ≠ m → (s.mailbox x).busy = false

/-- The request is offered, and no tick that fell before its completion's entry into DORMANT has still to be taken
before it (R177; log entry 6). -/
structure State.Takes (s : State) (m : MailboxId) (k : RequestKind) (w : RequestWords) : Prop
    extends s.Offers m k w where
  prompt : s.EntersDormancy m k → ¬s.TickWaits

/-- The same for mailbox `i`, of an ACTIVE initiator, with the directory not OFF: the request passes the gate
of R20 whatever its kind. -/
structure State.TakesActive (s : State) (i : Initiator) (k : RequestKind) (w : RequestWords) : Prop where
  taken : s.Takes (.initiator i) k w
  enabled : s.dirState ≠ .off
  active : s.tables.inits[i].state.isActive = true

/-- The tables with the lease of `i` at the configured lease length (R21, R79). -/
def State.renewed (s : State) (i : Initiator) : Tables :=
  { s.tables with
    inits := s.tables.inits.set i { s.tables.inits[i] with state := .active s.config.leaseLength } }

/-- The tables when a request of `i` is taken whose own rule changes nothing: the lease of an ACTIVE initiator
restarted while the directory is not OFF, and nothing otherwise (R21). -/
def State.afterTake (s : State) (i : Initiator) : Tables :=
  if s.dirState ≠ .off ∧ s.tables.inits[i].state.isActive = true then s.renewed i else s.tables

/-- The ten requests of the initiator mailboxes, each with its command (R152). -/
def initiatorCommands : List (RequestKind × Instr) :=
  [(.register, .register), (.unregister, .unregister), (.renew, .renew), (.claim, .claim),
    (.upgrade, .upgrade), (.downgrade, .downgrade), (.release, .release), (.cancel, .cancel),
    (.takeNotice, .takeNotice), (.lookup, .lookup)]

/-- Every request of the table with the command that takes it (R152). -/
def requestCommands : List (RequestKind × Instr) :=
  initiatorCommands
    ++ [(.undefined, .undefinedRequestKind), (.enable, .enable), (.disable, .disable), (.dormant, .dormant),
      (.evict, .evict), (.clearQuarantine, .clearQuarantine), (.clearCapture, .clearCapture),
      (.inspectClaim, .inspectClaim), (.inspectInitiator, .inspectInitiator),
      (.inspectWaiter, .inspectWaiter)]

/-- The lines of the gate that refuse (R20), the first that applies. -/
inductive GateRefusal (s : State) (i : Initiator) (k : RequestKind) : OutcomeCode → Prop where
  | off (h : s.dirState = .off) : GateRefusal s i k .off
  | lapsed (hon : s.dirState ≠ .off) (h : s.tables.inits[i].state = .lapsed) (hk : k ≠ .register) :
      GateRefusal s i k .lapsed
  | unregistered (hon : s.dirState ≠ .off) (h : s.tables.inits[i].state = .unregistered)
      (hk : k ≠ .register) (hl : k ≠ .lookup) : GateRefusal s i k .notRegistered

/-- How far mailbox `m` stands behind the pointer `p` in the ring, 0 for the one that follows it (R155). -/
def ringDistance (p m : MailboxId) : Nat :=
  (ringPlace m + 8 - ringPlace p) % 9

/-! ### Completion (R156, R158, R162, R171) -/

/-- The mailbox after its completion: IDLE, DONE or ERROR set by the code, the result words written. -/
def Mailbox.answered (mb : Mailbox) (r : Reply) : Mailbox :=
  { mb with
    captured := none
    done := mb.done || r.outcome.isSuccess
    error := mb.error || !r.outcome.isSuccess
    result := r.words }

/-- The directory state after the completion of mailbox `m`, from the state before it: DORMANT when QUIESCING
and no other mailbox is BUSY, and otherwise kept (R171). -/
structure DormancyJudged (s t : State) (m : MailboxId) : Prop where
  entered : s.dirState = .quiescing → (∀ x, x ≠ m → (s.mailbox x).busy = false) → t.dirState = .dormant
  kept : (s.dirState ≠ .quiescing ∨ ∃ x, x ≠ m ∧ (s.mailbox x).busy = true) → t.dirState = s.dirState

/-- `t` is `s` after the completion of initiator mailbox `i` with the reply `r`, and nothing else. -/
structure CompletedInitiator (s t : State) (i : Initiator) (r : Reply) : Prop where
  mailbox : t.mailboxes[i] = s.mailboxes[i].answered r
  others : ∀ j, j ≠ i → t.mailboxes[j] = s.mailboxes[j]
  pointer : t.arbiter = .initiator i
  dormancy : DormancyJudged s t (.initiator i)
  rest : t = { s with mailboxes := t.mailboxes, arbiter := t.arbiter, dirState := t.dirState }

/-- `t` is `s` after the completion of the management mailbox with the reply `r`, and nothing else: the
ownership ends when the owner submitted the request that completes.  That the recorded submitter is cleared is the
model's choice (log entry 14). -/
structure CompletedManagement (s t : State) (r : Reply) : Prop where
  mailbox : t.mgmt = s.mgmt.answered r
  pointer : t.arbiter = .management
  submitter : t.submitter = none
  unowned : s.ownership = none → t.ownership = none
  ended : ∀ o, s.ownership = some o → o.submitted = true → s.submitter = some o.manager →
    t.ownership = none
  owned : ∀ o, s.ownership = some o → (o.submitted = false ∨ s.submitter ≠ some o.manager) →
    t.ownership = some o
  dormancy : DormancyJudged s t .management
  rest : t = { s with
    mgmt := t.mgmt
    arbiter := t.arbiter
    submitter := t.submitter
    ownership := t.ownership
    dirState := t.dirState }

/-! ### Spans and conflicts (R2, R3, R16, R49) -/

/-- Two spans share a granule. -/
abbrev Span.Meets (a b : Span) : Prop :=
  a.first ≤ b.first + b.count - 1 ∧ b.first ≤ a.first + a.count - 1

/-- A span is legal under a guard limit. -/
abbrev Span.Legal (a : Span) (guardLimit : Nat) : Prop :=
  a.first ≤ 1048575 ∧ 1 ≤ a.count ∧ a.count ≤ 65536 ∧ a.first + a.count - 1 ≤ guardLimit

/-- A request and a record that is not FREE conflict (R16). -/
abbrev ConflictsRecord (mode : Mode) (span : Span) (c : Claim) : Prop :=
  span.Meets c.span ∧ (mode = .exclusive ∨ c.mode = .exclusive ∨ c.phase ≠ .held)

/-- A request and a waiter conflict (R49); an UPGRADE waiter is EXCLUSIVE. -/
abbrev ConflictsWaiter (mode : Mode) (span : Span) (v : Waiter) : Prop :=
  span.Meets v.span ∧ (mode = .exclusive ∨ v.mode = .exclusive)

/-- A request over a span meets a conflicting record, its own record `own` left out, or a conflicting waiter
among those ahead of it (R31, R36, R50). -/
abbrev Contends (claims : Claims) (ahead : List Waiter) (own : Option ClaimNo) (mode : Mode) (span : Span) :
    Prop :=
  (∃ e ∈ claims, own ≠ some e.1 ∧ ConflictsRecord mode span e.2)
    ∨ ∃ v ∈ ahead, ConflictsWaiter mode span v

/-- A claim number names a FREE record. -/
abbrev Claims.IsFree (claims : Claims) (n : ClaimNo) : Prop :=
  claims.get n = none

/-- No record is FREE. -/
abbrev Claims.Full (claims : Claims) : Prop :=
  ∀ n, ¬claims.IsFree n

/-- `n` is the lowest-numbered FREE record (R6). -/
abbrev Claims.Lowest (claims : Claims) (n : ClaimNo) : Prop :=
  claims.IsFree n ∧ ∀ m, m < n → ¬claims.IsFree m

/-- The records are those of `before` but for record `n`, which holds `c` (none: FREE). -/
def Claims.OnlyChanged (before after : Claims) (n : ClaimNo) (c : Option Claim) : Prop :=
  ∀ m, after.get m = if m = n then c else before.get m

/-- Initiator a waits for a different initiator b (R61). -/
def WaitsFor (claims : Claims) (queue : List Waiter) (a b : Initiator) : Prop :=
  a ≠ b ∧ ∃ before w after, queue = before ++ w :: after ∧ w.initiator = a ∧
    ((∃ e ∈ claims, e.2.holder = b ∧ e.2.live = true ∧ w.ownRecord ≠ some e.1
        ∧ ConflictsRecord w.mode w.span e.2)
      ∨ ∃ v ∈ before, v.initiator = b ∧ ConflictsWaiter w.mode w.span v)

/-! ### CLAIM: its steps and its refusals (R22, R27 to R34) -/

/-- The span overlaps a live record or a waiter of the requester (R29). -/
abbrev OverlapsOwn (tb : Tables) (i : Initiator) (span : Span) : Prop :=
  (∃ e ∈ tb.claims, e.2.holder = i ∧ e.2.phase ≠ .quarantined ∧ span.Meets e.2.span)
    ∨ ∃ v ∈ tb.queue, v.initiator = i ∧ span.Meets v.span

/-- A CLAIM of this mode has passed steps 1 to 3 of R27. -/
structure ClaimAtStep4 (s : State) (i : Initiator) (w : RequestWords) (mode : Mode) : Prop where
  form : modeOperand w = some mode
  legal : (claimSpan w).Legal s.config.guardLimit
  apart : ¬OverlapsOwn s.tables i (claimSpan w)
  belowLimit : claimCount s.tables i < s.config.claimLimit

/-- A CLAIM at step 4 cannot be granted at once (R31). -/
abbrev ClaimNotGrantable (tb : Tables) (w : RequestWords) (mode : Mode) : Prop :=
  Contends tb.claims tb.queue none mode (claimSpan w) ∨ tb.claims.Full

/-- The waiter a queued CLAIM becomes under ticket `t` (R34, R47, R56). -/
def claimEntry (i : Initiator) (w : RequestWords) (mode : Mode) (t : Ticket) : Waiter where
  ticket := t
  initiator := i
  kind := .claim mode
  span := claimSpan w
  tag := tagOperand w
  remaining := if waitLimit w = 65535 then none else some (waitLimit w)

/-- The refusals of a CLAIM that passed the gate, each with the step of R27 that decides it. -/
inductive ClaimRefusal (s : State) (i : Initiator) (w : RequestWords) : OutcomeCode → Prop where
  | form (h : 2 ≤ bitField 8 2 w.w1) : ClaimRefusal s i w .badRequest
  | range (hform : bitField 8 2 w.w1 < 2) (h : ¬(claimSpan w).Legal s.config.guardLimit) :
      ClaimRefusal s i w .range
  | selfOverlap (hform : bitField 8 2 w.w1 < 2) (hlegal : (claimSpan w).Legal s.config.guardLimit)
      (h : OverlapsOwn s.tables i (claimSpan w)) : ClaimRefusal s i w .selfOverlap
  | limit (hform : bitField 8 2 w.w1 < 2) (hlegal : (claimSpan w).Legal s.config.guardLimit)
      (hapart : ¬OverlapsOwn s.tables i (claimSpan w))
      (h : claimCount s.tables i = s.config.claimLimit) : ClaimRefusal s i w .limit
  | conflict (mode : Mode) (h4 : ClaimAtStep4 s i w mode) (hwait : waitLimit w = 0)
      (h : Contends s.tables.claims s.tables.queue none mode (claimSpan w)) : ClaimRefusal s i w .conflict
  | tableFull (mode : Mode) (h4 : ClaimAtStep4 s i w mode) (hwait : waitLimit w = 0)
      (hclear : ¬Contends s.tables.claims s.tables.queue none mode (claimSpan w))
      (h : s.tables.claims.Full) : ClaimRefusal s i w .tableFull
  | queueFull (mode : Mode) (h4 : ClaimAtStep4 s i w mode) (hwait : waitLimit w ≠ 0)
      (hng : ClaimNotGrantable s.tables w mode) (h : 64 ≤ s.tables.queue.length) :
      ClaimRefusal s i w .queueFull
  | tickets (mode : Mode) (h4 : ClaimAtStep4 s i w mode) (hwait : waitLimit w ≠ 0)
      (hng : ClaimNotGrantable s.tables w mode) (hroom : s.tables.queue.length < 64)
      (h : 8 ≤ openTicketCount s.tables i) : ClaimRefusal s i w .tickets
  | deadlock (mode : Mode) (t : Ticket) (h4 : ClaimAtStep4 s i w mode) (hwait : waitLimit w ≠ 0)
      (hng : ClaimNotGrantable s.tables w mode) (hroom : s.tables.queue.length < 64)
      (htickets : openTicketCount s.tables i < 8)
      (h : ∃ a, Relation.TransGen
        (WaitsFor s.tables.claims (s.tables.queue ++ [claimEntry i w mode t])) a a) :
      ClaimRefusal s i w .deadlock

/-! ### UPGRADE, DOWNGRADE and RELEASE: the named record (R35, R38, R39) -/

/-- The request names record `n` in word 2 (R22). -/
abbrev Names (w : RequestWords) (n : ClaimNo) : Prop :=
  w.w2.toNat = n.val

/-- The request names a record that is held by no one or by another: FREE, another initiator's, or the
requester's in DRAINING_OUT. -/
inductive NotHeldBy (claims : Claims) (i : Initiator) (n : ClaimNo) : Prop where
  | free (h : claims.IsFree n)
  | other (c : Claim) (h : claims.get n = some c) (hholder : c.holder ≠ i)
  | out (c : Claim) (stage : Stage) (h : claims.get n = some c) (hholder : c.holder = i)
      (hphase : c.phase = .drainingOut stage)

/-- The refusals that UPGRADE, DOWNGRADE and RELEASE share: an operand above 255, a record not held by the
requester, a QUARANTINED record of the requester. -/
inductive NameRefusal (claims : Claims) (i : Initiator) (w : RequestWords) : OutcomeCode → Prop where
  | form (h : 255 < w.w2.toNat) : NameRefusal claims i w .badRequest
  | notHolder (n : ClaimNo) (hn : Names w n) (h : NotHeldBy claims i n) : NameRefusal claims i w .notHolder
  | quarantined (n : ClaimNo) (hn : Names w n) (c : Claim) (h : claims.get n = some c)
      (hholder : c.holder = i) (hphase : c.phase = .quarantined) : NameRefusal claims i w .quarantined

/-- The request names record `n`, which is `c`: the requester's, HELD in this mode. -/
structure NamesHeld (claims : Claims) (i : Initiator) (w : RequestWords) (n : ClaimNo) (c : Claim)
    (mode : Mode) : Prop where
  named : Names w n
  record : claims.get n = some c
  holder : c.holder = i
  phase : c.phase = .held
  mode : c.mode = mode

/-- The request names record `n`, which is `c`: the requester's, DRAINING_DOWN with this stage. -/
structure NamesDraining (claims : Claims) (i : Initiator) (w : RequestWords) (n : ClaimNo) (c : Claim)
    (stage : Stage) : Prop where
  named : Names w n
  record : claims.get n = some c
  holder : c.holder = i
  phase : c.phase = .drainingDown stage

/-- The wait queue as its two runs (R48). -/
structure TwoRuns (queue upgrades claims : List Waiter) : Prop where
  split : queue = upgrades ++ claims
  upgrades : ∀ v ∈ upgrades, v.isUpgrade = true
  claims : ∀ v ∈ claims, v.isClaim = true

/-- The waiter a queued UPGRADE of record `n` becomes under ticket `t` (R37, R47, R56). -/
def upgradeEntry (i : Initiator) (w : RequestWords) (n : ClaimNo) (c : Claim) (t : Ticket) : Waiter where
  ticket := t
  initiator := i
  kind := .upgrade n
  span := c.span
  tag := c.tag
  remaining := if waitLimit w = 65535 then none else some (waitLimit w)

/-- The claim table with record `n` EXCLUSIVE and without upgrade ticket, as an UPGRADE grant leaves it (R8). -/
def upgradedClaims (claims : Claims) (n : ClaimNo) (c : Claim) : Claims :=
  claims.put n { c with mode := .exclusive, upgradeTicket := none }

/-- The refusals of an UPGRADE that passed the gate, beyond those that every named record can give
(R35 to R37, R63). -/
inductive UpgradeRefusal (tb : Tables) (i : Initiator) (w : RequestWords) (ups cls : List Waiter) :
    OutcomeCode → Prop where
  | name (o : OutcomeCode) (h : NameRefusal tb.claims i w o) : UpgradeRefusal tb i w ups cls o
  | exclusive (n : ClaimNo) (c : Claim) (h : NamesHeld tb.claims i w n c .exclusive) :
      UpgradeRefusal tb i w ups cls .badMode
  | draining (n : ClaimNo) (c : Claim) (stage : Stage) (h : NamesDraining tb.claims i w n c stage) :
      UpgradeRefusal tb i w ups cls .badPhase
  | ticket (n : ClaimNo) (c : Claim) (t : Ticket) (h : NamesHeld tb.claims i w n c .shared)
      (ht : c.upgradeTicket = some t) : UpgradeRefusal tb i w ups cls .badPhase
  | cycle (n : ClaimNo) (c : Claim) (h : NamesHeld tb.claims i w n c .shared)
      (ht : c.upgradeTicket = none) (hclear : ¬Contends tb.claims ups (some n) .exclusive c.span)
      (hcycle : ∃ a, Relation.TransGen (WaitsFor (upgradedClaims tb.claims n c) (ups ++ cls)) a a) :
      UpgradeRefusal tb i w ups cls .deadlock
  | conflict (n : ClaimNo) (c : Claim) (h : NamesHeld tb.claims i w n c .shared)
      (ht : c.upgradeTicket = none) (hc : Contends tb.claims ups (some n) .exclusive c.span)
      (hwait : waitLimit w = 0) : UpgradeRefusal tb i w ups cls .conflict
  | queueFull (n : ClaimNo) (c : Claim) (h : NamesHeld tb.claims i w n c .shared)
      (ht : c.upgradeTicket = none) (hc : Contends tb.claims ups (some n) .exclusive c.span)
      (hwait : waitLimit w ≠ 0) (hfull : 64 ≤ (ups ++ cls).length) :
      UpgradeRefusal tb i w ups cls .queueFull
  | tickets (n : ClaimNo) (c : Claim) (h : NamesHeld tb.claims i w n c .shared)
      (ht : c.upgradeTicket = none) (hc : Contends tb.claims ups (some n) .exclusive c.span)
      (hwait : waitLimit w ≠ 0) (hroom : (ups ++ cls).length < 64) (h8 : 8 ≤ openTicketCount tb i) :
      UpgradeRefusal tb i w ups cls .tickets
  | deadlock (n : ClaimNo) (c : Claim) (t : Ticket) (h : NamesHeld tb.claims i w n c .shared)
      (ht : c.upgradeTicket = none) (hc : Contends tb.claims ups (some n) .exclusive c.span)
      (hwait : waitLimit w ≠ 0) (hroom : (ups ++ cls).length < 64) (h8 : openTicketCount tb i < 8)
      (hcycle : ∃ a, Relation.TransGen
        (WaitsFor tb.claims (ups ++ upgradeEntry i w n c t :: cls)) a a) :
      UpgradeRefusal tb i w ups cls .deadlock

/-! ### An initiator that leaves ACTIVE (R77, R78, R81, R82) -/

/-- What becomes of a record when initiator `i` leaves; none is FREE. -/
def afterDeparture (i : Initiator) (c : Claim) : Option Claim :=
  if c.holder ≠ i then some c
  else
    match c.phase with
    | .held => if c.mode = .shared then none else some { c with phase := .drainingOut .pending }
    | .drainingDown stage => some { c with phase := .drainingOut stage }
    | .drainingOut _ | .quarantined => some c

/-- `left` are the tables after initiator `i` left ACTIVE for the state `st`, before any grant pass. -/
structure Departed (tb left : Tables) (i : Initiator) (st : InitState) : Prop where
  records : ∀ n, left.claims.get n = (tb.claims.get n).bind (afterDeparture i)
  sorted : left.claims.Sorted
  queue : left.queue = tb.queue.filter fun w => decide (w.initiator ≠ i)
  own : left.inits[i] = ⟨st, tb.inits[i].generation, []⟩
  others : ∀ j, j ≠ i → left.inits[j] = tb.inits[j]
  counter : left.ticketCounter = tb.ticketCounter
  appended : (∃ e ∈ left.claims, e.2.holder = i ∧ e.2.pendingDrain = true) → i ∉ tb.fenceQueue →
    left.fenceQueue = tb.fenceQueue ++ [i]
  kept : ((∀ e ∈ left.claims, e.2.holder = i → e.2.pendingDrain = false) ∨ i ∈ tb.fenceQueue) →
    left.fenceQueue = tb.fenceQueue

/-- The initiator has a record in HELD or DRAINING_DOWN, or a waiter: its departure runs a grant pass (R54). -/
abbrev HasStake (tb : Tables) (i : Initiator) : Prop :=
  (∃ e ∈ tb.claims, e.2.live = true ∧ e.2.holder = i) ∨ ∃ w ∈ tb.queue, w.initiator = i

/-! ### A grant pass (R50 to R52) -/

/-- The walk of a grant pass over the waiters still to be judged, from the claim table, the initiator table and the
waiters judged blocked so far, to those at its end: each waiter is judged against the grants before it and the
waiters ahead of it that stay, a granted one leaves with its notice, a blocked one stays in its place. -/
inductive PassWalk : Claims → Vector InitRecord 8 → List Waiter → List Waiter →
    Claims → Vector InitRecord 8 → List Waiter → Prop where
  | finished (claims : Claims) (inits : Vector InitRecord 8) (kept : List Waiter) :
      PassWalk claims inits kept [] claims inits kept
  | grantedClaim (claims after last : Claims) (inits lastInits : Vector InitRecord 8)
      (kept rest stayed : List Waiter) (v : Waiter) (mode : Mode) (n : ClaimNo) (hk : v.kind = .claim mode)
      (hclear : ¬Contends claims kept none mode v.span) (hn : claims.Lowest n)
      (hafter : claims.OnlyChanged after n (some ⟨.held, v.initiator, mode, v.span, v.tag, none⟩))
      (hrest : PassWalk after (appendNotice inits v.initiator ⟨v.ticket, .granted n, v.tag⟩) kept rest
        last lastInits stayed) :
      PassWalk claims inits kept (v :: rest) last lastInits stayed
  | grantedUpgrade (claims after last : Claims) (inits lastInits : Vector InitRecord 8)
      (kept rest stayed : List Waiter) (v : Waiter) (n : ClaimNo) (c : Claim) (hk : v.kind = .upgrade n)
      (hg : claims.get n = some c) (hclear : ¬Contends claims kept (some n) .exclusive v.span)
      (hafter : claims.OnlyChanged after n (some { c with mode := .exclusive, upgradeTicket := none }))
      (hrest : PassWalk after (appendNotice inits v.initiator ⟨v.ticket, .granted n, c.tag⟩) kept rest
        last lastInits stayed) :
      PassWalk claims inits kept (v :: rest) last lastInits stayed
  | blocked (claims last : Claims) (inits lastInits : Vector InitRecord 8) (kept rest stayed : List Waiter)
      (v : Waiter)
      (hb : Contends claims kept v.ownRecord v.mode v.span ∨ (v.isClaim = true ∧ claims.Full))
      (hrest : PassWalk claims inits (kept ++ [v]) rest last lastInits stayed) :
      PassWalk claims inits kept (v :: rest) last lastInits stayed

/-! ### A tick at the directory engine (R57, R80, R86, R87) -/

/-- The next tick brings the wait remaining to 0. -/
def Waiter.runsOut (v : Waiter) : Bool :=
  match v.remaining with
  | some r => decide (r ≤ 1)
  | none => false

/-- The next tick brings the lease to 0. -/
def InitState.runsOut : InitState → Bool
  | .active lease => decide (lease ≤ 1)
  | .absent | .unregistered | .lapsed => false

/-- The state with its lease, if it has one, lowered by one. -/
def InitState.lowered : InitState → InitState
  | .active lease => .active (lease - 1)
  | st => st

/-- `left` are the tables after stages 1 and 2 of a tick, before any grant pass: the waiters that expire leave with
EXPIRED notices in queue order, then the initiators whose leases end lapse, with their fence-queue appends in
ascending order; every other wait remaining and lease is lowered by one. -/
structure Ticked (tb left : Tables) : Prop where
  queue : left.queue = (tb.queue.filter fun v => !v.runsOut && !tb.inits[v.initiator].state.runsOut).map fun v =>
    { v with remaining := v.remaining.map (· - 1) }
  records : ∀ n, left.claims.get n = ((tb.claims.get n).map fun c =>
      if ∃ v ∈ tb.queue, v.runsOut = true ∧ v.ownRecord = some n then { c with upgradeTicket := none } else c).bind
    fun c => if tb.inits[c.holder].state.runsOut = true then afterDeparture c.holder c else some c
  sorted : left.claims.Sorted
  lapsed : ∀ i : Initiator, tb.inits[i].state.runsOut = true →
    left.inits[i] = ⟨.lapsed, tb.inits[i].generation, []⟩
  lowered : ∀ i : Initiator, tb.inits[i].state.runsOut = false →
    left.inits[i] = ⟨tb.inits[i].state.lowered, tb.inits[i].generation,
      tb.inits[i].notices ++ (tb.queue.filter fun v => v.runsOut && decide (v.initiator = i)).map fun v =>
        ⟨v.ticket, .expired, v.tag⟩⟩
  fences : left.fenceQueue = tb.fenceQueue ++ (List.finRange 8).filter fun i =>
    tb.inits[i].state.runsOut && !decide (i ∈ tb.fenceQueue)
      && left.claims.any fun e => decide (e.2.holder = i) && e.2.pendingDrain
  counter : left.ticketCounter = tb.ticketCounter

/-- Some waiter expires or some lease ends on the next tick: the tick runs a grant pass (R54, R86). -/
abbrev TickPasses (tb : Tables) : Prop :=
  (∃ v ∈ tb.queue, v.runsOut = true) ∨ ∃ i : Initiator, tb.inits[i].state.runsOut = true

/-! ### Time (R97, R162, R175 to R177) -/

/-- `t` is `s` after `n` periods of REFCLK, at most as many as the countdown holds, and nothing else, with no tick
waiting in `s`. -/
structure Elapsed (s t : State) (n : Nat) : Prop where
  delivered : s.countdown ≤ n → s.dirState ≠ .dormant → t.engineTick = true ∧ t.fenceTick = true
    ∧ (t.fenceTickHeld = true ↔ s.flight = .idle ∧ s.tables.fenceQueue ≠ [])
  undelivered : (n < s.countdown ∨ s.dirState = .dormant) → t.engineTick = s.engineTick
    ∧ t.fenceTick = s.fenceTick ∧ t.fenceTickHeld = s.fenceTickHeld
  ended : ∀ o, s.ownership = some o → o.submitted = false → (o.windowEnd - s.usCount).toNat ≤ n →
    t.ownership = none
  owned : ∀ o, s.ownership = some o → (o.submitted = true ∨ n < (o.windowEnd - s.usCount).toNat) →
    t.ownership = some o
  unowned : s.ownership = none → t.ownership = none
  rest : t = { s with
    usCount := s.usCount + BitVec.ofNat 32 n
    countdown := if n < s.countdown then s.countdown - n else s.config.tickPeriod
    engineTick := t.engineTick
    fenceTick := t.fenceTick
    fenceTickHeld := t.fenceTickHeld
    ownership := t.ownership }

/-- `t` is `s` after every tick that waits was taken: the commands of the two blocks' ticks one after the other, and
before the fence unit's the issue that its tick waits for, if it does. -/
def Settled (s t : State) : Prop :=
  ∃ u w, exec .directoryTick s = .next u
    ∧ (u.fenceTick = true → u.fenceTickHeld = true → exec .fenceIssue u = .next w)
    ∧ ((u.fenceTick = false ∨ u.fenceTickHeld = false) → w = u)
    ∧ exec .fenceUnitTick w = .next t

/-! ### The verdict table (R120) -/

/-- Some record that covers the granule has the property. -/
def Covered (s : State) (granule : Granule) (p : ClaimNo → Claim → Prop) : Prop :=
  ∃ e ∈ s.tables.claims, e.2.span.Meets ⟨granule.toNat, 1⟩ ∧ p e.1 e.2

/-- The situation of a line of the verdict table, as the line's own words give it. -/
def LineApplies (s : State) (who : Initiator) (granule : Granule) (kind : AccessKind) : Nat → Prop
  | 1 => s.dirState = .off
  | 2 => s.tables.inits[who].state = .absent
  | 3 => s.config.guardLimit < granule.toNat
  | 4 => s.tables.inits[who].state = .lapsed
  | 5 => Covered s granule fun _ c => c.phase = .quarantined
  | 6 => Covered s granule fun _ c => (∃ st, c.phase = .drainingOut st) ∧ c.holder = who
  | 7 => Covered s granule fun _ c => (∃ st, c.phase = .drainingOut st) ∧ c.holder ≠ who
  | 8 => (Covered s granule fun _ c => (∃ st, c.phase = .drainingDown st) ∧ c.holder = who) ∧ kind = .read
  | 9 => (Covered s granule fun _ c => (∃ st, c.phase = .drainingDown st) ∧ c.holder = who) ∧ kind = .write
  | 10 => Covered s granule fun _ c => (∃ st, c.phase = .drainingDown st) ∧ c.holder ≠ who
  | 11 => Covered s granule fun _ c => c.phase = .held ∧ c.mode = .exclusive ∧ c.holder = who
  | 12 => (Covered s granule fun _ c => c.phase = .held ∧ c.mode = .exclusive ∧ c.holder ≠ who)
      ∧ kind = .read ∧ s.config.readThrough = true
  | 13 => Covered s granule fun _ c => c.phase = .held ∧ c.mode = .exclusive ∧ c.holder ≠ who
  | 14 => (Covered s granule fun _ c => c.phase = .held ∧ c.mode = .shared) ∧ kind = .read
  | 15 => (Covered s granule fun _ c => c.phase = .held ∧ c.mode = .shared) ∧ kind = .write
  | 16 => (¬Covered s granule fun _ _ => True) ∧ kind = .read
  | 17 => (¬Covered s granule fun _ _ => True) ∧ kind = .write ∧ s.config.unclaimedClosed = false
  | 18 => (¬Covered s granule fun _ _ => True) ∧ kind = .write ∧ s.config.unclaimedClosed = true
  | _ => False

/-- The verdict of a line. -/
def lineVerdict : Nat → Verdict
  | 2 | 4 | 5 | 6 | 9 | 13 | 15 | 18 => .fault
  | 7 | 10 => .retry
  | _ => .pass

/-- The capture reason of a line that gives FAULT; where it carries a claim number, that of a covering record
in the line's situation. -/
def LineReason (s : State) (who : Initiator) (granule : Granule) : Nat → CaptureReason → Prop
  | 2, r => r = .absent
  | 4, r => r = .lapsed
  | 5, r => Covered s granule fun n c => c.phase = .quarantined ∧ r = .quarantine n
  | 6, r => Covered s granule fun n c => (∃ st, c.phase = .drainingOut st) ∧ c.holder = who ∧ r = .released n
  | 9, r => Covered s granule fun n c =>
      (∃ st, c.phase = .drainingDown st) ∧ c.holder = who ∧ r = .downgraded n
  | 13, r => Covered s granule fun n c =>
      c.phase = .held ∧ c.mode = .exclusive ∧ c.holder ≠ who ∧ r = .heldByOther n
  | 15, r => r = .sharedWrite
  | 18, r => r = .unclaimedWrite
  | _, _ => False

/-! ### Configuration (R173) -/

/-- The range of a configuration register. -/
def configRange : ConfigReg → Nat × Nat
  | .tickPeriod | .leaseLength => (1, 65535)
  | .fenceLimit => (1, 255)
  | .claimLimit => (1, 256)
  | .guardLimit => (0, 1048575)
  | .unclaimedWrite | .readThrough => (0, 1)
  | .managerSet => (0, 255)

/-- The value that a register takes from a word in its range: bit 0 of the manager set is taken as 1. -/
def takenValue (reg : ConfigReg) (v : Nat) : Nat :=
  if reg = .managerSet ∧ v % 2 = 0 then v + 1 else v

/-! ### Bus accesses (R150, R161) -/

/-- The access of `who` to its own initiator mailbox is answered ready. -/
structure OwnAccess (s : State) (who : Initiator) : Prop where
  running : s.inReset = false
  present : s.tables.inits[who].state ≠ .absent

/-- The access of `who` as a manager is answered ready. -/
structure ManagerAccess (s : State) (who : Initiator) : Prop where
  running : s.inReset = false
  present : s.tables.inits[who].state ≠ .absent
  manager : s.config.managerSet.getLsbD who.val = true

/-- No other manager owns the management mailbox. -/
abbrev NotOwnedByOther (s : State) (who : Initiator) : Prop :=
  ∀ o ∈ s.ownership, o.manager = who

/-- Every bit of the word outside the mask is 0. -/
abbrev OnlyBits (w mask : Word) : Prop :=
  w &&& ~~~mask = 0

/-- Bits 5:0 of word 0 of a mailbox show it: START reads 0, PHASE, the three flags and CMPE (R151). -/
structure ControlShown (w : Word) (mb : Mailbox) : Prop where
  start : w.getLsbD 0 = false
  phase : w.getLsbD 1 = mb.busy
  done : w.getLsbD 2 = mb.done
  error : w.getLsbD 3 = mb.error
  ovr : w.getLsbD 4 = mb.ovr
  cmpe : w.getLsbD 5 = mb.cmpe

/-- The words of a mailbox as a read at its offset shows them, word 0 apart: the request words, word 5 as 0, and the
result words (R151). -/
structure WordsShown (read : Nat → Word) (mb : Mailbox) : Prop where
  request : read 1 = mb.request.w1 ∧ read 2 = mb.request.w2 ∧ read 3 = mb.request.w3 ∧ read 4 = mb.request.w4
  unused : read 5 = 0
  result : ∀ k : Fin 10, read (6 + k.val) = mb.result[k]

/-- The directory state after a submission (R172). -/
def afterSubmission (d : DirState) : DirState :=
  if d = .dormant then .on else d

end Sys2Proof.Machine
end

