-- ==== Sys2Proof/Certificates/Slice0/Obligations.lean ====
section
/-! DEFINITION. The statements for the provers, in the words of `Sys2Proof/Vocabulary.lean`.  A statement about a
command concludes that `exec` answers a next state, names what that state holds, and, through the record
equations (`t = { s with ... }`), that nothing else changed. -/

section

open Sys2Proof Sys2Proof.Machine

/-! ### The machine -/

/-- A step takes the command at the front of the queue and runs it on the state with the queue's rest. -/
def Obligations.StepRunsFrontCommand : Prop :=
  ∀ (s : State) (c : Instr) (rest : List Instr),
    s.pending = c :: rest → step s = exec c { s with pending := rest }

/-- Every command answers a next state and leaves the queue of waiting commands alone; none stops.  RESETN apart, only
REGISTER moves a generation (R73), only CLAIM and UPGRADE the ticket counter (R66), only writes of the window the
request words and the configuration (R151, R173), and nothing the latched straps (R178). -/
def Obligations.EveryCommandAnswersAndFewMoveTheSlowState : Prop :=
  ∀ (c : Instr) (s : State), ∃ t, exec c s = .next t ∧ t.pending = s.pending ∧
    ((∀ p a m, c ≠ .resetn p a m) →
      (c ≠ .register → ∀ i : Initiator, t.tables.inits[i].generation = s.tables.inits[i].generation)
        ∧ (c ≠ .claim → c ≠ .upgrade → t.tables.ticketCounter = s.tables.ticketCounter)
        ∧ ((∀ who addr data, c ≠ .windowWrite who addr data) →
            ∀ m, (t.mailbox m).request = (s.mailbox m).request)
        ∧ ((∀ who addr data, c ≠ .windowWrite who addr data) → (∀ who reg data, c ≠ .configWrite who reg data) →
            t.config = s.config)
        ∧ t.straps = s.straps)

/-- RESETN: the straps are latched and every block takes its reset state, whatever it held (R178, R179). -/
def Obligations.ResetReleaseSetsEveryBlock : Prop :=
  ∀ (pres : BitVec 2) (autoon mgrall : Bool) (s : State), ∃ t present,
    exec (.resetn pres autoon mgrall) s = .next t
      ∧ present = (if pres = 0 then PresentCount.two else if pres = 1 then .four else .eight)
      ∧ t.straps = ⟨present, autoon, mgrall⟩
      ∧ (∀ m, t.mailbox m = ⟨⟨0, 0, 0, 0⟩, none, false, false, false, false, Vector.replicate 10 0⟩)
      ∧ (∀ i : Initiator, t.ntfe[i] = false) ∧ t.cape = false ∧ t.qae = false
      ∧ t.submitter = none ∧ t.ownership = none ∧ t.arbiter = .management
      ∧ t.tables.claims = [] ∧ t.tables.queue = [] ∧ t.tables.fenceQueue = [] ∧ t.tables.ticketCounter = 1
      ∧ (∀ i : Initiator, t.tables.inits[i]
          = ⟨if i.val < present.count then .unregistered else .absent, 0, []⟩)
      ∧ t.flight = .idle ∧ t.fenceTick = false ∧ t.fenceTickHeld = false ∧ t.engineTick = false
      ∧ t.capture = none ∧ t.overflow = false ∧ t.usCount = 0 ∧ t.countdown = 1000
      ∧ t.dirState = (if autoon then .on else .off)
      ∧ t.config = ⟨1000, 1000, 50, 32, 1048575, false, false,
          if mgrall then BitVec.ofNat 8 (2 ^ present.count - 1) else 1⟩
      ∧ t.configRefused = false ∧ t.inReset = false
      ∧ (∀ i, t.atn i = false) ∧ t.atnm = false ∧ t.freq = false ∧ t.finit = 0

/-- RESETN_ASSERTED: every submission is lost, the fence is abandoned, the lines fall; and while RESETn is low every bus
access is answered with an error response (that a read then carries no data is log entry 9), a check query receives no
verdict, and no command but those of RESETn changes anything else (R110, R164, R179). -/
def Obligations.LowResetAbandonsWorkAndTakesNoEvent : Prop :=
  (∀ s : State, ∃ t, exec .resetnAsserted s = .next t
    ∧ t.inReset = true ∧ (∀ m, (t.mailbox m).busy = false) ∧ t.flight = .idle ∧ t.verdictOut = none
    ∧ (∀ i, t.atn i = false) ∧ t.atnm = false ∧ t.freq = false ∧ t.finit = 0)
  ∧ (∀ (c : Instr) (s t : State), s.inReset = true → (∀ p a m, c ≠ .resetn p a m) → c ≠ .resetnAsserted →
    exec c s = .next t → t = { s with busOut := t.busOut, verdictOut := t.verdictOut }
      ∧ (t.busOut = s.busOut ∨ t.busOut = some ⟨true, none⟩)
      ∧ (t.verdictOut = s.verdictOut ∨ t.verdictOut = none))
  ∧ (∀ (s : State) (who : Initiator) (m : MailboxId) (addr : BitVec 8) (reg : ConfigReg) (data : Word) (c : Instr),
    s.inReset = true →
    c ∈ [Instr.submission who m data, .attentionEnableWrite who m data, .flagClear who m data,
      .windowWrite who addr data, .configWrite who reg data, .configRefusalClear who data, .takeOwnership who] →
    exec c s = .next { s with busOut := some ⟨true, none⟩ })
  ∧ ∀ (s : State) (who : Initiator) (granule : Granule) (kind : AccessKind), s.inReset = true →
    exec (.checkQuery who granule kind) s = .next { s with verdictOut := none }

/-! ### Taking requests -/

/-- The arbiter chooses the BUSY mailbox that stands least far behind its pointer (R155). -/
def Obligations.ArbiterChoosesNextBusyMailbox : Prop :=
  ∀ (s : State) (m : MailboxId),
    s.arbiterChoice = some m ↔
      (s.mailbox m).busy = true
        ∧ ∀ x, (s.mailbox x).busy = true → ringDistance s.arbiter m ≤ ringDistance s.arbiter x

/-- The gate before every initiator request refuses by the directory state and the initiator's state (R20). -/
def Obligations.GateRefusesInitiatorRequests : Prop :=
  ∀ (s : State) (i : Initiator) (w : RequestWords) (k : RequestKind) (c : Instr) (o : OutcomeCode),
    (k, c) ∈ initiatorCommands → s.Takes (.initiator i) k w → GateRefusal s i k o →
    ∃ t, exec c s = .next t ∧ CompletedInitiator s t i (.bare o)

/-- A request of an undefined kind or of the other class is refused with BAD_REQUEST in every directory state and
every initiator state, and restarts the lease of an ACTIVE requester (R20, R21, R152).  A management completion clears
the recorded submitter by the model's choice (log entry 14). -/
def Obligations.UndefinedKindIsBadRequest : Prop :=
  (∀ (s : State) (i : Initiator) (w : RequestWords), s.Takes (.initiator i) .undefined w →
    ∃ t, exec .undefinedRequestKind s = .next t
      ∧ CompletedInitiator { s with tables := s.afterTake i } t i (.bare .badRequest))
  ∧ (∀ (s : State) (w : RequestWords), s.Takes .management .undefined w →
    ∃ t, exec .undefinedRequestKind s = .next t ∧ CompletedManagement s t (.bare .badRequest))
  ∧ (∀ (i : Initiator) (w1 : Word), requestKind (.initiator i) w1 = .undefined ↔
      (bitField 4 1 w1 = 1 ∨ bitField 0 4 w1 = 0 ∨ 10 < bitField 0 4 w1))
  ∧ ∀ w1 : Word, requestKind .management w1 = .undefined ↔
      (bitField 4 1 w1 = 0 ∨ bitField 0 4 w1 = 0 ∨ 9 < bitField 0 4 w1)

/-- Every request that passes the gate from an ACTIVE initiator leaves it ACTIVE with a full lease, UNREGISTER
apart, and no request changes the state of another initiator (R21, R79). -/
def Obligations.EveryRequestRestartsTheLease : Prop :=
  ∀ (s : State) (i : Initiator) (w : RequestWords) (k : RequestKind) (c : Instr),
    (k, c) ∈ initiatorCommands → s.TakesActive i k w →
    ∃ t, exec c s = .next t
      ∧ (k ≠ .unregister → t.tables.inits[i].state = .active s.config.leaseLength)
      ∧ ∀ j : Initiator, j ≠ i → t.tables.inits[j].state = s.tables.inits[j].state

/-- Word 6 carries the outcome code in bits 7:0 and the primary value in bits 31:16, words 7 to 15 the result
records; the codes are those of R158, and the success codes are those below 10h. -/
def Obligations.ResultWordsCarryTheReply : Prop :=
  (∀ r : Reply, bitField 0 8 r.words[0] = r.outcome.code ∧ bitField 8 8 r.words[0] = 0
      ∧ bitField 16 16 r.words[0] = r.primary.toNat ∧ ∀ k : Fin 9, r.words[k.val + 1] = r.records[k])
    ∧ ([OutcomeCode.done, .granted, .queued, .already, .empty, .more, .off, .notRegistered, .lapsed,
        .badRequest, .range, .selfOverlap, .limit, .conflict, .tableFull, .queueFull, .tickets, .deadlock,
        .notHolder, .badPhase, .badMode, .notWaiting, .quarantined, .notActive, .notQuarantined].map
          OutcomeCode.code
        = [0x00, 0x01, 0x02, 0x03, 0x04, 0x05, 0x10, 0x11, 0x12, 0x13, 0x14, 0x15, 0x16, 0x17, 0x18, 0x19,
          0x1A, 0x1B, 0x1C, 0x1D, 0x1E, 0x1F, 0x20, 0x21, 0x22])
    ∧ ∀ o : OutcomeCode, o.isSuccess = true ↔ o.code < 0x10

/-! ### Registration (chapter 4) -/

/-- REGISTER from an UNREGISTERED or LAPSED initiator: ACTIVE with a full lease and the next generation, 1 after 255,
which is the primary value (R73, R74).  From an ACTIVE initiator: ALREADY with the current generation, and nothing
but the lease restart (R75). -/
def Obligations.RegisterStartsOrKeepsARegistration : Prop :=
  (∀ (s : State) (i : Initiator) (w : RequestWords) (g : BitVec 8),
    s.Takes (.initiator i) .register w → s.dirState ≠ .off →
    (s.tables.inits[i].state = .unregistered ∨ s.tables.inits[i].state = .lapsed) →
    g = (if s.tables.inits[i].generation = 255 then 1 else s.tables.inits[i].generation + 1) →
    ∃ t, exec .register s = .next t
      ∧ CompletedInitiator { s with tables := t.tables } t i (.plain .done (g.setWidth 16))
      ∧ t.tables = { s.tables with inits := s.tables.inits.set i (InitRecord.mk
          (.active s.config.leaseLength) g s.tables.inits[i].notices) })
  ∧ ∀ (s : State) (i : Initiator) (w : RequestWords), s.TakesActive i .register w →
    ∃ t, exec .register s = .next t
      ∧ CompletedInitiator { s with tables := s.renewed i } t i
          (.plain .already (s.tables.inits[i].generation.setWidth 16))

/-- RENEW: DONE and the lease restart alone from an ACTIVE initiator, and the refusals of the gate otherwise
(R76). -/
def Obligations.RenewRestartsTheLeaseAlone : Prop :=
  (∀ (s : State) (i : Initiator) (w : RequestWords), s.TakesActive i .renew w →
    ∃ t, exec .renew s = .next t
      ∧ CompletedInitiator { s with tables := s.renewed i } t i (.bare .done))
  ∧ ∀ (s : State) (i : Initiator) (w : RequestWords) (o : OutcomeCode), s.Takes (.initiator i) .renew w →
    GateRefusal s i .renew o → ∃ t, exec .renew s = .next t ∧ CompletedInitiator s t i (.bare o)

/-- UNREGISTER: the initiator's records, waiters and notices are disposed of, it is UNREGISTERED, and a grant pass runs
when it had a live record or a waiter (R77, R78).  EVICT: the refusals by the directory state, the operand and the
initiator's state, and the lapse of an ACTIVE initiator with its own grant pass (R84); its completion clears the
recorded submitter by the model's choice (log entry 14). -/
def Obligations.UnregisterAndEvictDisposeOfEverything : Prop :=
  (∀ (s : State) (i : Initiator) (w : RequestWords), s.tables.claims.Sorted →
    s.TakesActive i .unregister w →
    ∃ t left, exec .unregister s = .next t
      ∧ CompletedInitiator { s with tables := t.tables } t i (.bare .done)
      ∧ Departed s.tables left i .unregistered
      ∧ (HasStake s.tables i → t.tables = grantPass left) ∧ (¬HasStake s.tables i → t.tables = left))
  ∧ ∀ (s : State) (w : RequestWords), s.Takes .management .evict w →
    (s.dirState = .off → ∃ t, exec .evict s = .next t ∧ CompletedManagement s t (.bare .off))
    ∧ (s.dirState ≠ .off → 7 < w.w2.toNat →
        ∃ t, exec .evict s = .next t ∧ CompletedManagement s t (.bare .badRequest))
    ∧ ∀ i : Initiator, s.dirState ≠ .off → w.w2.toNat = i.val →
        (s.tables.inits[i].state.isActive = false →
          ∃ t, exec .evict s = .next t ∧ CompletedManagement s t (.bare .notActive))
        ∧ (s.tables.inits[i].state.isActive = true → s.tables.claims.Sorted →
          ∃ t left, exec .evict s = .next t
            ∧ CompletedManagement { s with tables := t.tables } t (.bare .done)
            ∧ Departed s.tables left i .lapsed
            ∧ (HasStake s.tables i → t.tables = grantPass left)
            ∧ (¬HasStake s.tables i → t.tables = left))

/-! ### CLAIM (chapter 2) -/

/-- CLAIM granted at once: the lowest FREE record becomes the requester's HELD record, and nothing else changes
but the lease (R31, R32). -/
def Obligations.ClaimGrantedAtOnceTakesTheLowestFreeRecord : Prop :=
  ∀ (s : State) (i : Initiator) (w : RequestWords) (mode : Mode) (n : ClaimNo),
    s.TakesActive i .claim w → ClaimAtStep4 s i w mode →
    ¬Contends s.tables.claims s.tables.queue none mode (claimSpan w) → s.tables.claims.Lowest n →
    ∃ t, exec .claim s = .next t
      ∧ CompletedInitiator { s with tables := t.tables } t i (.plain .granted (BitVec.ofNat 16 n.val))
      ∧ t.tables = { s.renewed i with claims := t.tables.claims }
      ∧ s.tables.claims.OnlyChanged t.tables.claims n
          (some ⟨.held, i, mode, claimSpan w, tagOperand w, none⟩)

/-- A refused CLAIM is refused by the first check of R27 that decides, and changes nothing but the lease
(R22, R24, R27 to R34). -/
def Obligations.ClaimRefusalsFollowTheOrderOfChecks : Prop :=
  ∀ (s : State) (i : Initiator) (w : RequestWords) (o : OutcomeCode),
    s.TakesActive i .claim w → ClaimRefusal s i w o →
    ∃ t, exec .claim s = .next t ∧ CompletedInitiator { s with tables := s.renewed i } t i (.bare o)

/-- A CLAIM that may wait, is not granted and is not refused joins the tail of the queue under the next ticket
(R34, R55, R56). -/
def Obligations.ClaimQueuedJoinsTheTail : Prop :=
  ∀ (s : State) (i : Initiator) (w : RequestWords) (mode : Mode),
    s.TakesActive i .claim w → ClaimAtStep4 s i w mode → ClaimNotGrantable s.tables w mode →
    waitLimit w ≠ 0 → s.tables.queue.length < 64 → openTicketCount s.tables i < 8 →
    (¬∃ a, Relation.TransGen (WaitsFor s.tables.claims
      (s.tables.queue ++ [claimEntry i w mode (issuedTicket s.tables)])) a a) →
    ∃ t, exec .claim s = .next t
      ∧ CompletedInitiator { s with tables := t.tables } t i (.plain .queued (issuedTicket s.tables))
      ∧ t.tables = { s.renewed i with
          queue := s.tables.queue ++ [claimEntry i w mode (issuedTicket s.tables)]
          ticketCounter := nextTicket (issuedTicket s.tables) }

/-- The ticket issued is the first number at or after the counter, 65,535 followed by 1, that is not open; it is
never 0 (R65, R66). -/
def Obligations.IssuedTicketIsTheFirstClosedNumber : Prop :=
  ∀ tb : Tables, tb.CapacityLaw → tb.ticketCounter ≠ 0 →
    issuedTicket tb ∉ openTickets tb ∧ issuedTicket tb ≠ 0
      ∧ ∃ k, issuedTicket tb = nextTicket^[k] tb.ticketCounter
        ∧ ∀ j, j < k → nextTicket^[j] tb.ticketCounter ∈ openTickets tb

/-! ### UPGRADE, DOWNGRADE, RELEASE (chapter 2) -/

/-- UPGRADE granted at once: the named record becomes EXCLUSIVE, and nothing else changes but the lease
(R36, R63). -/
def Obligations.UpgradeGrantedAtOnceMakesTheRecordExclusive : Prop :=
  ∀ (s : State) (i : Initiator) (w : RequestWords) (n : ClaimNo) (c : Claim) (ups cls : List Waiter),
    s.TakesActive i .upgrade w → TwoRuns s.tables.queue ups cls →
    NamesHeld s.tables.claims i w n c .shared → c.upgradeTicket = none →
    ¬Contends s.tables.claims ups (some n) .exclusive c.span →
    (¬∃ a, Relation.TransGen (WaitsFor (upgradedClaims s.tables.claims n c) s.tables.queue) a a) →
    ∃ t, exec .upgrade s = .next t
      ∧ CompletedInitiator { s with tables := t.tables } t i (.plain .granted (BitVec.ofNat 16 n.val))
      ∧ t.tables = { s.renewed i with claims := t.tables.claims }
      ∧ s.tables.claims.OnlyChanged t.tables.claims n (some { c with mode := .exclusive })

/-- A refused UPGRADE is refused by the record it names, by the cycle its grant would close, or by the queue, and
changes nothing but the lease (R22, R24, R35 to R37, R63). -/
def Obligations.UpgradeRefusalsFollowTheNamedRecord : Prop :=
  ∀ (s : State) (i : Initiator) (w : RequestWords) (o : OutcomeCode) (ups cls : List Waiter),
    s.TakesActive i .upgrade w → TwoRuns s.tables.queue ups cls → UpgradeRefusal s.tables i w ups cls o →
    ∃ t, exec .upgrade s = .next t ∧ CompletedInitiator { s with tables := s.renewed i } t i (.bare o)

/-- An UPGRADE that may wait, is not granted and is not refused joins the queue behind the last UPGRADE waiter, and
its record gains the ticket (R8, R37, R48). -/
def Obligations.UpgradeQueuedJoinsTheUpgradeRun : Prop :=
  ∀ (s : State) (i : Initiator) (w : RequestWords) (n : ClaimNo) (c : Claim) (ups cls : List Waiter),
    s.TakesActive i .upgrade w → TwoRuns s.tables.queue ups cls →
    NamesHeld s.tables.claims i w n c .shared → c.upgradeTicket = none →
    Contends s.tables.claims ups (some n) .exclusive c.span → waitLimit w ≠ 0 →
    s.tables.queue.length < 64 → openTicketCount s.tables i < 8 →
    (¬∃ a, Relation.TransGen (WaitsFor s.tables.claims
      (ups ++ upgradeEntry i w n c (issuedTicket s.tables) :: cls)) a a) →
    ∃ t, exec .upgrade s = .next t
      ∧ CompletedInitiator { s with tables := t.tables } t i (.plain .queued (issuedTicket s.tables))
      ∧ t.tables = { s.renewed i with
          claims := t.tables.claims
          queue := ups ++ upgradeEntry i w n c (issuedTicket s.tables) :: cls
          ticketCounter := nextTicket (issuedTicket s.tables) }
      ∧ s.tables.claims.OnlyChanged t.tables.claims n
          (some { c with upgradeTicket := some (issuedTicket s.tables) })

/-- DOWNGRADE: a HELD EXCLUSIVE record becomes DRAINING_DOWN SHARED PENDING and its holder joins the fence queue
unless it stands there; every other named record gives its refusal (R10, R38, R41). -/
def Obligations.DowngradeStartsADrainOrIsRefused : Prop :=
  ∀ (s : State) (i : Initiator) (w : RequestWords), s.TakesActive i .downgrade w →
    (∀ (n : ClaimNo) (c : Claim), NamesHeld s.tables.claims i w n c .exclusive →
      ∃ t, exec .downgrade s = .next t
        ∧ CompletedInitiator { s with tables := t.tables } t i (.bare .done)
        ∧ t.tables = { s.renewed i with
            claims := t.tables.claims
            fenceQueue := if i ∈ s.tables.fenceQueue then s.tables.fenceQueue
              else s.tables.fenceQueue ++ [i] }
        ∧ s.tables.claims.OnlyChanged t.tables.claims n
            (some { c with phase := .drainingDown .pending, mode := .shared }))
    ∧ ∀ o, (NameRefusal s.tables.claims i w o
          ∨ (o = .badMode ∧ ∃ n c, NamesHeld s.tables.claims i w n c .shared)
          ∨ (o = .badPhase ∧ ∃ n c stage, NamesDraining s.tables.claims i w n c stage)) →
        ∃ t, exec .downgrade s = .next t
          ∧ CompletedInitiator { s with tables := s.renewed i } t i (.bare o)

/-- RELEASE of a record that was or had been EXCLUSIVE: HELD EXCLUSIVE becomes DRAINING_OUT PENDING with the fence
queue joined, DRAINING_DOWN becomes DRAINING_OUT with its stage kept; a record the requester does not hold gives
its refusal (R11, R12, R39 to R41). -/
def Obligations.ReleaseDrainsAnExclusiveRecordOrIsRefused : Prop :=
  ∀ (s : State) (i : Initiator) (w : RequestWords), s.TakesActive i .release w →
    (∀ (n : ClaimNo) (c : Claim), NamesHeld s.tables.claims i w n c .exclusive →
      ∃ t, exec .release s = .next t
        ∧ CompletedInitiator { s with tables := t.tables } t i (.bare .done)
        ∧ t.tables = { s.renewed i with
            claims := t.tables.claims
            fenceQueue := if i ∈ s.tables.fenceQueue then s.tables.fenceQueue
              else s.tables.fenceQueue ++ [i] }
        ∧ s.tables.claims.OnlyChanged t.tables.claims n (some { c with phase := .drainingOut .pending }))
    ∧ (∀ (n : ClaimNo) (c : Claim) (stage : Stage), NamesDraining s.tables.claims i w n c stage →
      ∃ t, exec .release s = .next t
        ∧ CompletedInitiator { s with tables := t.tables } t i (.bare .done)
        ∧ t.tables = { s.renewed i with claims := t.tables.claims }
        ∧ s.tables.claims.OnlyChanged t.tables.claims n (some { c with phase := .drainingOut stage }))
    ∧ ∀ o, NameRefusal s.tables.claims i w o →
        ∃ t, exec .release s = .next t
          ∧ CompletedInitiator { s with tables := s.renewed i } t i (.bare o)

/-- RELEASE of a HELD SHARED record: it becomes FREE, its UPGRADE waiter leaves with a WITHDRAWN notice, and a
grant pass runs over what is left (R9, R40). -/
def Obligations.ReleaseOfASharedRecordFreesIt : Prop :=
  ∀ (s : State) (i : Initiator) (w : RequestWords) (n : ClaimNo) (c : Claim),
    s.TakesActive i .release w → NamesHeld s.tables.claims i w n c .shared →
    ∃ t freed, exec .release s = .next t
      ∧ CompletedInitiator { s with tables := t.tables } t i (.bare .done)
      ∧ t.tables = grantPass freed
      ∧ s.tables.claims.OnlyChanged freed.claims n none
      ∧ (c.upgradeTicket = none → freed = { s.renewed i with claims := freed.claims })
      ∧ ∀ k, c.upgradeTicket = some k → freed = { s.renewed i with
          claims := freed.claims
          queue := s.tables.queue.filter fun v => decide (v.ticket ≠ k)
          inits := s.tables.inits.set i ⟨.active s.config.leaseLength, s.tables.inits[i].generation,
            s.tables.inits[i].notices ++ [⟨k, .withdrawn, c.tag⟩]⟩ }

/-! ### Waiting (chapter 3) -/

/-- CANCEL: the requester's waiter leaves the queue without a notice, its record loses the upgrade ticket, and a
grant pass runs; otherwise NOT_WAITING, or BAD_REQUEST for a value above 65,535 (R59). -/
def Obligations.CancelRemovesTheWaiter : Prop :=
  ∀ (s : State) (i : Initiator) (w : RequestWords), s.TakesActive i .cancel w →
    (∀ (before after : List Waiter) (v : Waiter), s.tables.queue = before ++ v :: after →
      v.initiator = i → v.ticket ≠ 0 → v.ticket.toNat = w.w2.toNat →
      (∀ x ∈ before ++ after, x.ticket ≠ v.ticket) →
      ∃ t left, exec .cancel s = .next t
        ∧ CompletedInitiator { s with tables := t.tables } t i (.bare .done)
        ∧ t.tables = grantPass left
        ∧ left = { s.renewed i with claims := left.claims, queue := before ++ after }
        ∧ ∀ n, left.claims.get n =
            if v.ownRecord = some n then (s.tables.claims.get n).map fun c => { c with upgradeTicket := none }
            else s.tables.claims.get n)
    ∧ (w.w2.toNat < 65536 →
        (w.w2.toNat = 0 ∨ ∀ v ∈ s.tables.queue, v.initiator = i → v.ticket.toNat ≠ w.w2.toNat) →
        ∃ t, exec .cancel s = .next t
          ∧ CompletedInitiator { s with tables := s.renewed i } t i (.bare .notWaiting))
    ∧ (65535 < w.w2.toNat →
        ∃ t, exec .cancel s = .next t
          ∧ CompletedInitiator { s with tables := s.renewed i } t i (.bare .badRequest))

/-- TAKE-NOTICE: the oldest notice is removed and returned with its ticket, outcome, claim number and tag, every other
bit 0, or EMPTY (R69, R157). -/
def Obligations.TakeNoticeReturnsTheOldest : Prop :=
  ∀ (s : State) (i : Initiator) (w : RequestWords), s.TakesActive i .takeNotice w →
    (s.tables.inits[i].notices = [] →
      ∃ t, exec .takeNotice s = .next t
        ∧ CompletedInitiator { s with tables := s.renewed i } t i (.bare .empty))
    ∧ ∀ (n : Notice) (rest : List Notice), s.tables.inits[i].notices = n :: rest →
        ∃ t r, exec .takeNotice s = .next t
          ∧ CompletedInitiator { s with tables := t.tables } t i r
          ∧ t.tables = { s.tables with inits := s.tables.inits.set i (InitRecord.mk
              (.active s.config.leaseLength) s.tables.inits[i].generation rest) }
          ∧ r.outcome = .done ∧ r.primary = n.ticket
          ∧ (∀ m, n.outcome = .granted m →
              bitField 0 2 r.records[0] = 1 ∧ bitField 8 8 r.records[0] = m.val)
          ∧ (n.outcome = .expired → bitField 0 2 r.records[0] = 2 ∧ bitField 8 8 r.records[0] = 0)
          ∧ (n.outcome = .withdrawn → bitField 0 2 r.records[0] = 3 ∧ bitField 8 8 r.records[0] = 0)
          ∧ bitField 16 16 r.records[0] = n.tag.toNat ∧ OnlyBits r.records[0] 0xFFFFFF03
          ∧ ∀ k : Fin 9, k ≠ 0 → r.records[k] = 0

/-- A grant pass walks the queue from its head: each waiter is judged against the grants before it and the waiters ahead
of it that stay, the granted ones leave with their notices in queue order, a CLAIM with the lowest FREE record, and the
blocked ones keep their order; nothing else changes (R6, R50 to R52).  Over a sole waiter: a CLAIM that nothing blocks
takes the lowest FREE record, an UPGRADE makes its record EXCLUSIVE, and a blocked waiter stays. -/
def Obligations.GrantPassJudgesWaitersInQueueOrder : Prop :=
  (∀ tb : Tables, (∀ v ∈ tb.queue, ∀ n, v.ownRecord = some n → ¬tb.claims.IsFree n) →
    ∃ after inits stayed, PassWalk tb.claims tb.inits [] tb.queue after inits stayed
      ∧ grantPass tb = { tb with claims := after, queue := stayed, inits := inits })
  ∧ ∀ (tb : Tables) (v : Waiter), tb.queue = [v] →
    (∀ (mode : Mode) (n : ClaimNo), v.kind = .claim mode → ¬Contends tb.claims [] none mode v.span →
      tb.claims.Lowest n →
      ∃ after, grantPass tb = { tb with
          claims := after
          queue := []
          inits := appendNotice tb.inits v.initiator ⟨v.ticket, .granted n, v.tag⟩ }
        ∧ tb.claims.OnlyChanged after n (some ⟨.held, v.initiator, mode, v.span, v.tag, none⟩))
    ∧ (∀ (n : ClaimNo) (c : Claim), v.kind = .upgrade n → tb.claims.get n = some c →
      ¬Contends tb.claims [] (some n) .exclusive v.span →
      ∃ after, grantPass tb = { tb with
          claims := after
          queue := []
          inits := appendNotice tb.inits v.initiator ⟨v.ticket, .granted n, c.tag⟩ }
        ∧ tb.claims.OnlyChanged after n (some { c with mode := .exclusive, upgradeTicket := none }))
    ∧ ((Contends tb.claims [] v.ownRecord v.mode v.span ∨ (v.isClaim = true ∧ tb.claims.Full)) →
      grantPass tb = tb)

/-- After a grant pass every waiter that stays is blocked, judged against the table as the whole pass left it and
the waiters ahead of it (R51, R53). -/
def Obligations.GrantPassLeavesOnlyBlockedWaiters : Prop :=
  ∀ tb : Tables, (∀ v ∈ tb.queue, ∀ n, v.ownRecord = some n → ¬tb.claims.IsFree n) →
    AllBlocked (grantPass tb).claims [] (grantPass tb).queue

/-- The model's search for a cycle finds one exactly when the wait-for relation of R61 has one (R61, R62). -/
def Obligations.CycleSearchDecidesTheWaitForRelation : Prop :=
  ∀ (claims : Claims) (queue : List Waiter),
    hasCycle (waitPairs claims queue) = true ↔ ∃ a, Relation.TransGen (WaitsFor claims queue) a a

/-! ### Lookup and inspection (chapter 7) -/

/-- LOOKUP: BAD_REQUEST for a cursor above 255, RANGE for an illegal span, and otherwise the first four of the
records at or above the cursor that overlap the span, with MORE when further ones stand, every bit not named 0
(R138 to R140, R157). -/
def Obligations.LookupReturnsTheFirstFourRecords : Prop :=
  ∀ (s : State) (i : Initiator) (w : RequestWords), s.Takes (.initiator i) .lookup w → s.dirState ≠ .off →
    (s.tables.inits[i].state.isActive = true ∨ s.tables.inits[i].state = .unregistered) →
    (255 < lookupCursor w → ∃ t, exec .lookup s = .next t
      ∧ CompletedInitiator { s with tables := s.afterTake i } t i (.bare .badRequest))
    ∧ (lookupCursor w ≤ 255 → ¬(lookupSpan w).Legal s.config.guardLimit → ∃ t, exec .lookup s = .next t
      ∧ CompletedInitiator { s with tables := s.afterTake i } t i (.bare .range))
    ∧ (lookupCursor w ≤ 255 → (lookupSpan w).Legal s.config.guardLimit →
      ∀ selected : Claims, selected = (s.tables.claims.filter fun e =>
          decide (lookupCursor w ≤ e.1.val ∧ (lookupSpan w).Meets e.2.span)) →
        ∃ t r, exec .lookup s = .next t
          ∧ CompletedInitiator { s with tables := s.afterTake i } t i r
          ∧ r.outcome = (if 4 < selected.length then .more else .done)
          ∧ r.primary.toNat % 8 = min 4 selected.length ∧ r.primary.toNat / 8 % 16 = 0
          ∧ r.primary.toNat / 128 = (match (selected.take 4).getLast? with
              | some e => e.1.val + 1
              | none => 256)
          ∧ ∀ (k : Nat) (hk : k < 4),
              (∀ n c, selected[k]? = some (n, c) →
                bitField 0 20 r.records[2 * k] = c.span.first % 1048576
                  ∧ bitField 20 3 r.records[2 * k] = c.holder.val
                  ∧ bitField 23 1 r.records[2 * k] = c.mode.code
                  ∧ bitField 24 3 r.records[2 * k] = c.phase.code
                  ∧ bitField 28 2 r.records[2 * k] = c.phase.stageCode
                  ∧ bitField 0 16 r.records[2 * k + 1] = (c.span.count - 1) % 65536
                  ∧ bitField 16 16 r.records[2 * k + 1] = c.tag.toNat
                  ∧ bitField (8 * k) 8 r.records[8] = n.val ∧ OnlyBits r.records[2 * k] 0x37FFFFFF)
              ∧ (selected[k]? = none → r.records[2 * k] = 0 ∧ r.records[2 * k + 1] = 0
                  ∧ bitField (8 * k) 8 r.records[8] = 0))

/-- INSPECT-CLAIM: the record whole, 0 in every field of a FREE one (R143).  INSPECT-INITIATOR: the initiator record
with its counts; an ABSENT initiator and a number above 7 are refused (R144).  INSPECT-WAITER: the waiter at a
position with the queue length, EMPTY beyond the queue, BAD_REQUEST above 63 (R146).  All in every directory state,
with every bit and word not filled 0 (R142, R157).  Their completion clears the recorded submitter by the model's
choice (log entry 14). -/
def Obligations.InspectionReturnsTheTables : Prop :=
  (∀ (s : State) (w : RequestWords), s.Takes .management .inspectClaim w →
    (255 < w.w2.toNat → ∃ t, exec .inspectClaim s = .next t
      ∧ CompletedManagement s t (.bare .badRequest))
    ∧ ∀ n : ClaimNo, Names w n → ∃ t r, exec .inspectClaim s = .next t ∧ CompletedManagement s t r
      ∧ r.outcome = .done ∧ r.primary = BitVec.ofNat 16 n.val
      ∧ (s.tables.claims.IsFree n → ∀ k : Fin 9, r.records[k] = 0)
      ∧ ∀ c, s.tables.claims.get n = some c →
          bitField 0 3 r.records[0] = c.phase.code ∧ bitField 3 1 r.records[0] = c.mode.code
          ∧ bitField 4 2 r.records[0] = c.phase.stageCode ∧ bitField 8 3 r.records[0] = c.holder.val
          ∧ bitField 0 20 r.records[1] = c.span.first % 1048576
          ∧ bitField 0 17 r.records[2] = c.span.count % 131072
          ∧ bitField 0 16 r.records[3] = c.tag.toNat
          ∧ (c.upgradeTicket = none → bitField 16 16 r.records[3] = 0)
          ∧ (∀ k, c.upgradeTicket = some k → bitField 16 16 r.records[3] = k.toNat)
          ∧ OnlyBits r.records[0] 0x73F ∧ OnlyBits r.records[1] 0xFFFFF ∧ OnlyBits r.records[2] 0x1FFFF
          ∧ ∀ k : Fin 9, 3 < k.val → r.records[k] = 0)
  ∧ (∀ (s : State) (w : RequestWords), s.Takes .management .inspectInitiator w →
    (7 < w.w2.toNat → ∃ t, exec .inspectInitiator s = .next t
      ∧ CompletedManagement s t (.bare .badRequest))
    ∧ ∀ i : Initiator, w.w2.toNat = i.val →
      (s.tables.inits[i].state = .absent → ∃ t, exec .inspectInitiator s = .next t
        ∧ CompletedManagement s t (.bare .badRequest))
      ∧ (s.tables.inits[i].state ≠ .absent →
        ∃ t r, exec .inspectInitiator s = .next t ∧ CompletedManagement s t r
          ∧ r.outcome = .done ∧ r.primary.toNat = s.tables.inits[i].generation.toNat
          ∧ bitField 0 3 r.records[0] = i.val
          ∧ bitField 4 2 r.records[0] = s.tables.inits[i].state.code
          ∧ bitField 8 8 r.records[0] = s.tables.inits[i].generation.toNat
          ∧ bitField 0 16 r.records[1] = s.tables.inits[i].state.leaseRemaining % 65536
          ∧ bitField 0 9 r.records[2] = heldCount s.tables.claims i % 512
          ∧ bitField 16 4 r.records[2] = waiterCount s.tables.queue i % 16
          ∧ bitField 24 4 r.records[2] = s.tables.inits[i].notices.length % 16
          ∧ OnlyBits r.records[0] 0xFF37 ∧ OnlyBits r.records[1] 0xFFFF ∧ OnlyBits r.records[2] 0x0F0F01FF
          ∧ ∀ k : Fin 9, 2 < k.val → r.records[k] = 0))
  ∧ ∀ (s : State) (w : RequestWords), s.Takes .management .inspectWaiter w →
    (63 < w.w2.toNat → ∃ t, exec .inspectWaiter s = .next t
      ∧ CompletedManagement s t (.bare .badRequest))
    ∧ (w.w2.toNat ≤ 63 → s.tables.queue.length ≤ w.w2.toNat →
      ∃ t r, exec .inspectWaiter s = .next t ∧ CompletedManagement s t r
        ∧ r.outcome = .empty ∧ r.primary = 0
        ∧ bitField 8 7 r.records[0] = s.tables.queue.length % 128
        ∧ bitField 0 8 r.records[0] = 0 ∧ bitField 15 17 r.records[0] = 0
        ∧ ∀ k : Fin 9, k ≠ 0 → r.records[k] = 0)
    ∧ ∀ v, w.w2.toNat ≤ 63 → s.tables.queue[w.w2.toNat]? = some v →
      ∃ t r, exec .inspectWaiter s = .next t ∧ CompletedManagement s t r
        ∧ r.outcome = .done ∧ r.primary = v.ticket
        ∧ bitField 0 6 r.records[0] = w.w2.toNat
        ∧ bitField 8 7 r.records[0] = s.tables.queue.length % 128
        ∧ bitField 16 1 r.records[0] = v.kind.code ∧ bitField 17 1 r.records[0] = v.mode.code
        ∧ bitField 24 3 r.records[0] = v.initiator.val
        ∧ bitField 0 20 r.records[1] = v.span.first % 1048576
        ∧ bitField 0 17 r.records[2] = v.span.count % 131072
        ∧ bitField 0 16 r.records[3] = v.tag.toNat
        ∧ bitField 16 8 r.records[3] = v.kind.claimNumber
        ∧ (v.remaining = none → r.records[4] = 0)
        ∧ (∀ k, v.remaining = some k → bitField 0 16 r.records[4] = k % 65536)
        ∧ OnlyBits r.records[0] 0x07037F3F ∧ OnlyBits r.records[1] 0xFFFFF ∧ OnlyBits r.records[2] 0x1FFFF
        ∧ OnlyBits r.records[3] 0x00FFFFFF ∧ OnlyBits r.records[4] 0xFFFF
        ∧ ∀ k : Fin 9, 4 < k.val → r.records[k] = 0

/-! ### Directory control (chapter 9) -/

/-- ENABLE: OFF and QUIESCING become ON with DONE, ON answers ALREADY (R167).  DORMANT: OFF in OFF, ALREADY in
QUIESCING, and in ON the directory becomes QUIESCING and, when no other mailbox is BUSY, DORMANT in the same event
(R170, R171).  The completion clears the recorded submitter by the model's choice (log entry 14). -/
def Obligations.EnableAndDormantMoveTheDirectory : Prop :=
  (∀ (s : State) (w : RequestWords), s.Takes .management .enable w →
    ((s.dirState = .off ∨ s.dirState = .quiescing) →
      ∃ t, exec .enable s = .next t ∧ CompletedManagement { s with dirState := .on } t (.bare .done))
    ∧ (s.dirState = .on →
      ∃ t, exec .enable s = .next t ∧ CompletedManagement s t (.bare .already)))
  ∧ ∀ (s : State) (w : RequestWords), s.Takes .management .dormant w →
    (s.dirState = .off → ∃ t, exec .dormant s = .next t ∧ CompletedManagement s t (.bare .off))
    ∧ (s.dirState = .on →
      ∃ t, exec .dormant s = .next t ∧ CompletedManagement { s with dirState := .quiescing } t (.bare .done)
        ∧ ((∀ i : Initiator, s.mailboxes[i].busy = false) → t.dirState = .dormant)
        ∧ ((∃ i : Initiator, s.mailboxes[i].busy = true) → t.dirState = .quiescing))
    ∧ (s.dirState = .quiescing →
      ∃ t, exec .dormant s = .next t ∧ CompletedManagement s t (.bare .already))

/-- DISABLE: ALREADY in OFF, and otherwise the teardown in one event, which keeps the configuration, the
generations, the ticket counter, the mailboxes, the enables, the ownership and the counts of time (R109, R168).  The
model's choices: a delivered tick still waits, and waits for no issue any more (log entry 6), DISABLE taken in DORMANT,
which R172 rules out, makes the teardown too (log entry 12), and the recorded submitter is cleared (log entry 14). -/
def Obligations.DisableTearsTheDirectoryDown : Prop :=
  ∀ (s : State) (w : RequestWords), s.Takes .management .disable w →
    (s.dirState = .off → ∃ t, exec .disable s = .next t ∧ CompletedManagement s t (.bare .already))
    ∧ (s.dirState ≠ .off → ∃ t inits, exec .disable s = .next t
      ∧ CompletedManagement { s with
          tables := ⟨[], [], inits, s.tables.ticketCounter, []⟩
          flight := .idle
          fenceTickHeld := false
          capture := none
          overflow := false
          configRefused := false
          dirState := .off } t (.bare .done)
      ∧ ∀ i : Initiator, inits[i] = ⟨if s.tables.inits[i].state = .absent then .absent else .unregistered,
          s.tables.inits[i].generation, []⟩)

/-- CLEAR-QUARANTINE: its refusals in order, and a QUARANTINED record becomes FREE before a grant pass (R114).  The
completion clears the recorded submitter by the model's choice (log entry 14). -/
def Obligations.ClearQuarantineFreesTheRecord : Prop :=
  ∀ (s : State) (w : RequestWords), s.Takes .management .clearQuarantine w →
    (s.dirState = .off → ∃ t, exec .clearQuarantine s = .next t ∧ CompletedManagement s t (.bare .off))
    ∧ (s.dirState ≠ .off → 255 < w.w2.toNat →
      ∃ t, exec .clearQuarantine s = .next t ∧ CompletedManagement s t (.bare .badRequest))
    ∧ ∀ n : ClaimNo, s.dirState ≠ .off → Names w n →
      ((∀ c, s.tables.claims.get n = some c → c.phase ≠ .quarantined) →
        ∃ t, exec .clearQuarantine s = .next t ∧ CompletedManagement s t (.bare .notQuarantined))
      ∧ ∀ c, s.tables.claims.get n = some c → c.phase = .quarantined →
        ∃ t freed, exec .clearQuarantine s = .next t
          ∧ CompletedManagement { s with tables := t.tables } t (.bare .done)
          ∧ t.tables = grantPass { s.tables with claims := freed }
          ∧ s.tables.claims.OnlyChanged freed n none

/-- CLEAR-CAPTURE: DONE in every directory state; the capture and the overflow flag are returned in words 7 and 8
and cleared, every other bit 0 (R133, R135, R157).  The completion clears the recorded submitter by the model's choice
(log entry 14). -/
def Obligations.ClearCaptureReturnsWhatItClears : Prop :=
  ∀ (s : State) (w : RequestWords), s.Takes .management .clearCapture w →
    ∃ t r, exec .clearCapture s = .next t
      ∧ CompletedManagement { s with capture := none, overflow := false } t r
      ∧ r.outcome = .done ∧ r.primary = 0
      ∧ bitField 1 1 r.records[0] = s.overflow.toNat ∧ OnlyBits r.records[0] 0x00FF0F77
      ∧ (s.capture = none → bitField 0 1 r.records[0] = 0 ∧ bitField 2 30 r.records[0] = 0
          ∧ r.records[1] = 0)
      ∧ (∀ c, s.capture = some c →
          bitField 0 1 r.records[0] = 1 ∧ bitField 2 1 r.records[0] = accessCode c.kind
          ∧ bitField 4 3 r.records[0] = c.initiator.val ∧ bitField 8 4 r.records[0] = c.reason.code
          ∧ bitField 16 8 r.records[0] = c.reason.claimNumber
          ∧ r.records[1].toNat = c.granule.toNat)
      ∧ ∀ k : Fin 9, 1 < k.val → r.records[k] = 0

/-! ### The window (chapter 8) -/

/-- SUBMISSION to an IDLE mailbox: the request words are captured, the flags cleared, the mailbox BUSY, the enables
written, a DORMANT directory ON; in the management mailbox the submitting manager is recorded and the owner's mark
set (R153, R162, R172). -/
def Obligations.SubmissionCapturesTheRequest : Prop :=
  (∀ (s : State) (who : Initiator) (data : Word), OwnAccess s who → s.mailboxes[who].busy = false →
    exec (.submission who (.initiator who) data) s = .next { s with
      mailboxes := s.mailboxes.set who { s.mailboxes[who] with
        captured := some s.mailboxes[who].request
        done := false
        error := false
        ovr := false
        cmpe := data.getLsbD 5 }
      ntfe := s.ntfe.set who (data.getLsbD 6)
      dirState := afterSubmission s.dirState
      busOut := some ⟨false, none⟩ })
  ∧ ∀ (s : State) (who : Initiator) (data : Word), ManagerAccess s who → NotOwnedByOther s who →
    s.mgmt.busy = false →
    exec (.submission who .management data) s = .next { s with
      mgmt := { s.mgmt with
        captured := some s.mgmt.request
        done := false
        error := false
        ovr := false
        cmpe := data.getLsbD 5 }
      cape := data.getLsbD 14
      qae := data.getLsbD 15
      submitter := some who
      ownership := s.ownership.map fun o => { o with submitted := true }
      dirState := afterSubmission s.dirState
      busOut := some ⟨false, none⟩ }

/-- While a mailbox is BUSY a START and a write to words 1 to 5 are lost and set OVR; the enables and the clearing
bits of the START's write still act, and the captured request stands (R154). -/
def Obligations.WritesToABusyMailboxAreLost : Prop :=
  (∀ (s : State) (who : Initiator) (data : Word), OwnAccess s who → s.mailboxes[who].busy = true →
    exec (.submission who (.initiator who) data) s = .next { s with
      mailboxes := s.mailboxes.set who { s.mailboxes[who] with
        done := s.mailboxes[who].done && !data.getLsbD 2
        error := s.mailboxes[who].error && !data.getLsbD 3
        ovr := true
        cmpe := data.getLsbD 5 }
      ntfe := s.ntfe.set who (data.getLsbD 6)
      busOut := some ⟨false, none⟩ })
  ∧ (∀ (s : State) (who : Initiator) (addr : BitVec 8) (data : Word), OwnAccess s who →
    s.mailboxes[who].busy = true → 64 + 16 * who.val < addr.toNat → addr.toNat ≤ 64 + 16 * who.val + 5 →
    exec (.windowWrite who addr data) s = .next { s with
      mailboxes := s.mailboxes.set who { s.mailboxes[who] with ovr := true }
      busOut := some ⟨false, none⟩ })
  ∧ (∀ (s : State) (who : Initiator) (data : Word), ManagerAccess s who → NotOwnedByOther s who →
    s.mgmt.busy = true →
    exec (.submission who .management data) s = .next { s with
      mgmt := { s.mgmt with
        done := s.mgmt.done && !data.getLsbD 2
        error := s.mgmt.error && !data.getLsbD 3
        ovr := true
        cmpe := data.getLsbD 5 }
      cape := data.getLsbD 14
      qae := data.getLsbD 15
      busOut := some ⟨false, none⟩ })
  ∧ ∀ (s : State) (who : Initiator) (addr : BitVec 8) (data : Word), ManagerAccess s who →
    NotOwnedByOther s who → s.mgmt.busy = true → 1 ≤ addr.toNat → addr.toNat ≤ 5 →
    exec (.windowWrite who addr data) s = .next { s with
      mgmt := { s.mgmt with ovr := true }
      busOut := some ⟨false, none⟩ }

/-- ATTENTION_ENABLE_WRITE and FLAG_CLEAR: a write to word 0 without START sets the enables and clears each flag
written as 1, and submits nothing (R153). -/
def Obligations.ControlWriteWithoutStartSubmitsNothing : Prop :=
  (∀ (s : State) (who : Initiator) (data : Word) (c : Instr), OwnAccess s who →
    c ∈ [Instr.attentionEnableWrite who (.initiator who) data, .flagClear who (.initiator who) data] →
    exec c s = .next { s with
      mailboxes := s.mailboxes.set who { s.mailboxes[who] with
        done := s.mailboxes[who].done && !data.getLsbD 2
        error := s.mailboxes[who].error && !data.getLsbD 3
        ovr := s.mailboxes[who].ovr && !data.getLsbD 4
        cmpe := data.getLsbD 5 }
      ntfe := s.ntfe.set who (data.getLsbD 6)
      busOut := some ⟨false, none⟩ })
  ∧ ∀ (s : State) (who : Initiator) (data : Word) (c : Instr), ManagerAccess s who → NotOwnedByOther s who →
    c ∈ [Instr.attentionEnableWrite who .management data, .flagClear who .management data] →
    exec c s = .next { s with
      mgmt := { s.mgmt with
        done := s.mgmt.done && !data.getLsbD 2
        error := s.mgmt.error && !data.getLsbD 3
        ovr := s.mgmt.ovr && !data.getLsbD 4
        cmpe := data.getLsbD 5 }
      cape := data.getLsbD 14
      qae := data.getLsbD 15
      busOut := some ⟨false, none⟩ }

/-- WINDOW_WRITE: words 1 to 4 of an IDLE mailbox store the value, word 1 in its named bits alone; word 5, the
result words, the status block, the unused offsets and the reserved configuration offsets ignore it (R149, R151,
R153, R173). -/
def Obligations.WindowWriteStoresRequestWordsAlone : Prop :=
  (∀ (s : State) (who : Initiator) (addr : BitVec 8) (data : Word) (word : Nat) (r : RequestWords),
    OwnAccess s who → s.mailboxes[who].busy = false → addr.toNat = 64 + 16 * who.val + word →
    ((word = 1 ∧ r = { s.mailboxes[who].request with w1 := data &&& 0x31F })
      ∨ (word = 2 ∧ r = { s.mailboxes[who].request with w2 := data })
      ∨ (word = 3 ∧ r = { s.mailboxes[who].request with w3 := data })
      ∨ (word = 4 ∧ r = { s.mailboxes[who].request with w4 := data })
      ∨ (5 ≤ word ∧ word ≤ 15 ∧ r = s.mailboxes[who].request)) →
    exec (.windowWrite who addr data) s = .next { s with
      mailboxes := s.mailboxes.set who { s.mailboxes[who] with request := r }
      busOut := some ⟨false, none⟩ })
  ∧ (∀ (s : State) (who : Initiator) (addr : BitVec 8) (data : Word) (r : RequestWords),
    ManagerAccess s who → NotOwnedByOther s who → s.mgmt.busy = false →
    ((addr = 1 ∧ r = { s.mgmt.request with w1 := data &&& 0x31F })
      ∨ (addr = 2 ∧ r = { s.mgmt.request with w2 := data })
      ∨ (addr = 3 ∧ r = { s.mgmt.request with w3 := data })
      ∨ (addr = 4 ∧ r = { s.mgmt.request with w4 := data })
      ∨ (5 ≤ addr.toNat ∧ addr.toNat ≤ 15 ∧ r = s.mgmt.request)) →
    exec (.windowWrite who addr data) s = .next { s with
      mgmt := { s.mgmt with request := r }
      busOut := some ⟨false, none⟩ })
  ∧ (∀ (s : State) (who : Initiator) (addr : BitVec 8) (data : Word), OwnAccess s who →
    ((32 ≤ addr.toNat ∧ addr.toNat < 64) ∨ 192 ≤ addr.toNat) →
    exec (.windowWrite who addr data) s = .next { s with busOut := some ⟨false, none⟩ })
  ∧ ∀ (s : State) (who : Initiator) (addr : BitVec 8) (data : Word), ManagerAccess s who →
    ((24 ≤ addr.toNat ∧ addr.toNat < 31) ∨ (addr.toNat = 31 ∧ data.getLsbD 0 = false)) →
    exec (.windowWrite who addr data) s = .next { s with busOut := some ⟨false, none⟩ }

/-- A bus write without the right, and every access of an ABSENT initiator, is answered with an error response and
changes nothing else (R150).  While a manager owns the management mailbox, a write of another manager to any of its
words is answered ready, sets OVR and does nothing else (R161). -/
def Obligations.WritesWithoutTheRightChangeNothing : Prop :=
  ((∀ (s : State) (who : Initiator) (c : Instr) (m : MailboxId) (addr : BitVec 8) (reg : ConfigReg)
      (data : Word), s.tables.inits[who].state = .absent → s.inReset = false →
    c ∈ [Instr.submission who m data, .attentionEnableWrite who m data, .flagClear who m data,
      .windowWrite who addr data, .configWrite who reg data, .configRefusalClear who data] →
    exec c s = .next { s with busOut := some ⟨true, none⟩ })
  ∧ (∀ (s : State) (who : Initiator), s.tables.inits[who].state = .absent → s.inReset = false →
    exec (.takeOwnership who) s = .next { s with busOut := some ⟨true, some 0⟩ })
  ∧ (∀ (s : State) (who i : Initiator) (c : Instr) (addr : BitVec 8) (data : Word), who ≠ i →
    64 + 16 * i.val ≤ addr.toNat → addr.toNat < 80 + 16 * i.val →
    c ∈ [Instr.submission who (.initiator i) data, .attentionEnableWrite who (.initiator i) data,
      .flagClear who (.initiator i) data, .windowWrite who addr data] →
    exec c s = .next { s with busOut := some ⟨true, none⟩ })
  ∧ ∀ (s : State) (who : Initiator) (c : Instr) (addr : BitVec 8) (reg : ConfigReg) (data : Word),
    s.config.managerSet.getLsbD who.val = false → addr.toNat < 32 →
    c ∈ [Instr.submission who .management data, .attentionEnableWrite who .management data,
      .flagClear who .management data, .windowWrite who addr data, .configWrite who reg data,
      .configRefusalClear who data] →
    exec c s = .next { s with busOut := some ⟨true, none⟩ })
  ∧ ∀ (s : State) (who : Initiator) (o : Ownership) (c : Instr) (addr : BitVec 8) (data : Word),
    ManagerAccess s who → s.ownership = some o → o.manager ≠ who → addr.toNat < 16 →
    c ∈ [Instr.submission who .management data, .attentionEnableWrite who .management data,
      .flagClear who .management data, .windowWrite who addr data] →
    exec c s = .next { s with mgmt := { s.mgmt with ovr := true }, busOut := some ⟨false, none⟩ }

/-- TAKE_OWNERSHIP: a manager's read of management word 0 takes the ownership of an IDLE, unowned mailbox for
2,000 microseconds; any other such read leaves the ownership; the read returns the word (R150, R161).  What a bus
read returns (R149 to R151, R173, R180): ready with the word, or an error response with 0 for an ABSENT initiator;
word 0 and the other words of each mailbox, the configuration, the status block, and 0 everywhere else. -/
def Obligations.ReadingWord0TakesOwnership : Prop :=
  (∀ (s : State) (who : Initiator), OwnAccess s who → ∃ t, exec (.takeOwnership who) s = .next t
    ∧ t = { s with ownership := t.ownership, busOut := some ⟨false, some (s.readWindow 0)⟩ }
    ∧ (s.config.managerSet.getLsbD who.val = true → s.mgmt.busy = false → s.ownership = none →
        t.ownership = some ⟨who, s.usCount + 2000, false⟩)
    ∧ ((s.config.managerSet.getLsbD who.val = false ∨ s.mgmt.busy = true ∨ s.ownership ≠ none) →
        t.ownership = s.ownership))
  ∧ (∀ (s : State) (who : Initiator) (addr : BitVec 8), s.inReset = false →
    (s.tables.inits[who].state ≠ .absent → s.busRead who addr = ⟨false, some (s.readWindow addr)⟩)
    ∧ (s.tables.inits[who].state = .absent → s.busRead who addr = ⟨true, some 0⟩))
  ∧ (∀ s : State, ControlShown (s.readWindow 0) s.mgmt ∧ (s.readWindow 0).getLsbD 14 = s.cape
    ∧ (s.readWindow 0).getLsbD 15 = s.qae ∧ OnlyBits (s.readWindow 0) 0xC03F
    ∧ WordsShown (fun n => s.readWindow (BitVec.ofNat 8 n)) s.mgmt)
  ∧ (∀ (s : State) (i : Initiator) (w : Word), w = s.readWindow (BitVec.ofNat 8 (64 + 16 * i.val)) →
    ControlShown w s.mailboxes[i] ∧ w.getLsbD 6 = s.ntfe[i]
    ∧ (w.getLsbD 7 = true ↔ s.tables.inits[i].state = .lapsed)
    ∧ bitField 8 4 w = s.tables.inits[i].notices.length % 16
    ∧ bitField 12 2 w = (match s.tables.inits[i].state with
        | .absent => 0
        | .unregistered => 1
        | .active _ => 2
        | .lapsed => 3)
    ∧ OnlyBits w 0x3FFF
    ∧ WordsShown (fun n => s.readWindow (BitVec.ofNat 8 (64 + 16 * i.val + n))) s.mailboxes[i])
  ∧ (∀ s : State,
    ((s.readWindow 16).toNat = s.config.tickPeriod % 4294967296
      ∧ (s.readWindow 17).toNat = s.config.leaseLength % 4294967296
      ∧ (s.readWindow 18).toNat = s.config.fenceLimit % 4294967296
      ∧ (s.readWindow 19).toNat = s.config.claimLimit % 4294967296
      ∧ (s.readWindow 20).toNat = s.config.guardLimit % 4294967296
      ∧ (s.readWindow 21).toNat = s.config.unclaimedClosed.toNat
      ∧ (s.readWindow 22).toNat = s.config.readThrough.toNat
      ∧ (s.readWindow 23).toNat = s.config.managerSet.toNat
      ∧ (s.readWindow 31).toNat = s.configRefused.toNat)
    ∧ (bitField 0 2 (s.readWindow 32) = (match s.dirState with
          | .off => 0
          | .on => 1
          | .quiescing => 2
          | .dormant => 3)
      ∧ (s.readWindow 32).getLsbD 4 = s.configRefused ∧ (s.readWindow 32).getLsbD 8 = s.straps.autoon
      ∧ (s.readWindow 32).getLsbD 9 = s.straps.mgrall
      ∧ bitField 12 2 (s.readWindow 32) = (match s.straps.present with
          | .two => 0
          | .four => 1
          | .eight => 2)
      ∧ OnlyBits (s.readWindow 32) 0x3313)
    ∧ (bitField 0 9 (s.readWindow 33) = s.tables.claims.length % 512
      ∧ bitField 16 9 (s.readWindow 33)
        = (s.tables.claims.filter fun e => decide (e.2.phase = .quarantined)).length % 512
      ∧ OnlyBits (s.readWindow 33) 0x01FF01FF)
    ∧ (bitField 0 7 (s.readWindow 34) = s.tables.queue.length % 128
      ∧ bitField 8 4 (s.readWindow 34) = s.tables.fenceQueue.length % 16
      ∧ ((s.readWindow 34).getLsbD 16 = true ↔ s.flight ≠ .idle)
      ∧ (∀ i, s.flight.initiator = some i → bitField 20 3 (s.readWindow 34) = i.val)
      ∧ (s.flight = .idle → bitField 20 3 (s.readWindow 34) = 0)
      ∧ ((s.readWindow 34).getLsbD 23 = true ↔ ∃ i, s.flight = .deferred i)
      ∧ (s.readWindow 34).getLsbD 24 = s.ownership.isSome
      ∧ (∀ o, s.ownership = some o → bitField 28 3 (s.readWindow 34) = o.manager.val)
      ∧ (s.ownership = none → bitField 28 3 (s.readWindow 34) = 0)
      ∧ OnlyBits (s.readWindow 34) 0x71F10F7F)
    ∧ (bitField 1 1 (s.readWindow 35) = s.overflow.toNat ∧ OnlyBits (s.readWindow 35) 0x00FF0F77
      ∧ (s.capture = none → OnlyBits (s.readWindow 35) 2 ∧ s.readWindow 36 = 0)
      ∧ ∀ c, s.capture = some c →
          bitField 0 1 (s.readWindow 35) = 1 ∧ bitField 2 1 (s.readWindow 35) = accessCode c.kind
          ∧ bitField 4 3 (s.readWindow 35) = c.initiator.val ∧ bitField 8 4 (s.readWindow 35) = c.reason.code
          ∧ bitField 16 8 (s.readWindow 35) = c.reason.claimNumber
          ∧ (s.readWindow 36).toNat = c.granule.toNat))
  ∧ ∀ (s : State) (addr : BitVec 8),
    ((24 ≤ addr.toNat ∧ addr.toNat ≤ 30) ∨ (37 ≤ addr.toNat ∧ addr.toNat < 64) ∨ 192 ≤ addr.toNat) →
    s.readWindow addr = 0

/-- OWNERSHIP_WINDOW_END: without a submission of the owner, the ownership ends when the microsecond count reaches
the end of the window, and no mailbox changes; the countdown runs with it, and a tick that falls on the way falls as
by TICK (R162, R175 to R177; how far the command runs is log entry 3, what comes before time goes on log entry 6).
Without a running window it leaves the state (log entry 4). -/
def Obligations.OwnershipEndsWithItsWindow : Prop :=
  (∀ (s : State) (o : Ownership) (left : Nat), s.inReset = false → s.ownership = some o → o.submitted = false →
    ¬s.TickWaits → left = (o.windowEnd - s.usCount).toNat → left ≤ s.countdown →
    ∃ t, exec .ownershipWindowEnd s = .next t ∧ Elapsed s t left ∧ t.ownership = none ∧ t.usCount = o.windowEnd)
  ∧ (∀ (s : State) (o : Ownership), s.inReset = false → s.ownership = some o → o.submitted = false →
    0 < s.countdown → 0 < s.config.tickPeriod → s.countdown < (o.windowEnd - s.usCount).toNat →
    ∃ u, exec .tick s = .next u ∧ exec .ownershipWindowEnd s = exec .ownershipWindowEnd u)
  ∧ (∀ (s : State) (o : Ownership), s.inReset = false → s.ownership = some o → o.submitted = false →
    0 < s.countdown → 0 < s.config.tickPeriod →
    ∃ t, exec .ownershipWindowEnd s = .next t ∧ t.ownership = none ∧ t.usCount = o.windowEnd
      ∧ 0 < t.countdown ∧ (t.countdown ≤ s.countdown ∨ t.countdown ≤ s.config.tickPeriod)
      ∧ t = { s with
          usCount := t.usCount
          countdown := t.countdown
          ownership := none
          tables := t.tables
          flight := t.flight
          engineTick := t.engineTick
          fenceTick := t.fenceTick
          fenceTickHeld := t.fenceTickHeld })
  ∧ ∀ s : State, (∀ o, s.ownership = some o → o.submitted = true) →
    exec .ownershipWindowEnd s = .next s

/-- CONFIG_WRITE and CONFIG_REFUSAL_CLEAR: in OFF a value in range replaces the register; any other write is
ignored and sets the config-refusal flag, which a write of 1 to bit 0 at 07Ch clears in every state (R173). -/
def Obligations.ConfigurationIsWrittenInOffAlone : Prop :=
  (∀ (s : State) (who : Initiator) (reg : ConfigReg) (data : Word), ManagerAccess s who →
    s.dirState = .off → (configRange reg).1 ≤ data.toNat → data.toNat ≤ (configRange reg).2 →
    ∃ t, exec (.configWrite who reg data) s = .next t
      ∧ t = { s with config := t.config, busOut := some ⟨false, none⟩ }
      ∧ t.config.value reg = takenValue reg data.toNat
      ∧ ∀ other, other ≠ reg → t.config.value other = s.config.value other)
  ∧ (∀ (s : State) (who : Initiator) (reg : ConfigReg) (data : Word), ManagerAccess s who →
    (s.dirState ≠ .off ∨ data.toNat < (configRange reg).1 ∨ (configRange reg).2 < data.toNat) →
    exec (.configWrite who reg data) s
      = .next { s with configRefused := true, busOut := some ⟨false, none⟩ })
  ∧ ∀ (s : State) (who : Initiator) (data : Word), ManagerAccess s who →
    exec (.configRefusalClear who data) s
      = .next { s with configRefused := false, busOut := some ⟨false, none⟩ }

/-- ATN0 to ATN7 and ATNM are high exactly while one of their terms holds (R159, R160), and low while RESETn is low
(R179). -/
def Obligations.AttentionLinesFollowTheirTerms : Prop :=
  (∀ (s : State) (i : Initiator), s.atn i = true ↔
    s.inReset = false ∧ s.tables.inits[i].state ≠ .absent ∧
      ((s.mailboxes[i].busy = false ∧ (s.mailboxes[i].done = true ∨ s.mailboxes[i].error = true)
          ∧ s.mailboxes[i].cmpe = true)
        ∨ (s.tables.inits[i].notices ≠ [] ∧ s.ntfe[i] = true)
        ∨ s.tables.inits[i].state = .lapsed))
  ∧ ∀ s : State, s.atnm = true ↔
    s.inReset = false ∧
      ((s.mgmt.busy = false ∧ (s.mgmt.done = true ∨ s.mgmt.error = true) ∧ s.mgmt.cmpe = true)
        ∨ (s.capture ≠ none ∧ s.cape = true)
        ∨ ((∃ e ∈ s.tables.claims, e.2.phase = .quarantined) ∧ s.qae = true))

/-! ### The check port (chapter 6) -/

/-- Each query is answered by the first line of the verdict table that applies, some line applies, and a query
changes nothing but the verdict, the capture and the overflow flag (R118, R120). -/
def Obligations.VerdictIsTheFirstLineThatApplies : Prop :=
  ∀ (s : State) (who : Initiator) (granule : Granule) (kind : AccessKind), s.inReset = false →
    ∃ t line, exec (.checkQuery who granule kind) s = .next t
      ∧ LineApplies s who granule kind line
      ∧ (∀ k, 1 ≤ k → k < line → ¬LineApplies s who granule kind k)
      ∧ t = { s with
          verdictOut := some (lineVerdict line)
          capture := t.capture
          overflow := t.overflow }

/-- A FAULT latches the capture with the line's reason when none is present and sets the overflow flag otherwise;
a PASS or RETRY leaves both (R133, R134). -/
def Obligations.FirstFaultIsCaptured : Prop :=
  ∀ (s : State) (who : Initiator) (granule : Granule) (kind : AccessKind) (line : Nat),
    s.inReset = false → LineApplies s who granule kind line →
    (∀ k, 1 ≤ k → k < line → ¬LineApplies s who granule kind k) →
    ∃ t, exec (.checkQuery who granule kind) s = .next t
      ∧ (lineVerdict line ≠ .fault → t.capture = s.capture ∧ t.overflow = s.overflow)
      ∧ (lineVerdict line = .fault → s.capture = none →
          t.overflow = s.overflow
          ∧ ∃ reason, LineReason s who granule line reason ∧ t.capture = some ⟨who, granule, kind, reason⟩)
      ∧ (lineVerdict line = .fault → s.capture ≠ none → t.capture = s.capture ∧ t.overflow = true)

/-! ### The fence unit (chapter 5) -/

/-- FENCE_ISSUE: when the fence unit is IDLE and the queue is not empty, the head leaves, the fence is TIMED with
the fence limit, and the head's PENDING drains become ISSUED (R13, R97, R98); a tick that waited for the issue waits
for it no more (log entry 6).  Otherwise no issue is due and the command leaves the state (the model's choice, log
entry 4). -/
def Obligations.FenceIssueTakesTheHead : Prop :=
  (∀ (s : State) (i : Initiator) (rest : List Initiator), s.inReset = false → s.tables.claims.Sorted →
    s.flight = .idle → s.tables.fenceQueue = i :: rest →
    ∃ t after, exec .fenceIssue s = .next t
      ∧ t = { s with
          tables := { s.tables with claims := after, fenceQueue := rest }
          flight := .timed i s.config.fenceLimit
          fenceTickHeld := false }
      ∧ t.freq = true ∧ t.finit = i
      ∧ ∀ n, after.get n = (s.tables.claims.get n).map fun c =>
          if c.holder = i ∧ c.phase = .drainingDown .pending then { c with phase := .drainingDown .issued }
          else if c.holder = i ∧ c.phase = .drainingOut .pending then { c with phase := .drainingOut .issued }
          else c)
  ∧ ∀ s : State, (s.inReset = true ∨ s.flight ≠ .idle ∨ s.tables.fenceQueue = []) →
    exec .fenceIssue s = .next s

/-- FENCE_DONE with a fence for i in flight: the fence ends, i's ISSUED DRAINING_OUT records become FREE and its
ISSUED DRAINING_DOWN records HELD SHARED, and a grant pass runs if any record changed (R14, R101, R111). -/
def Obligations.FenceDoneFinishesTheIssuedDrains : Prop :=
  ∀ (s : State) (i : Initiator), s.inReset = false → s.tables.claims.Sorted → s.flight.initiator = some i →
    ∃ t after, exec .fenceDone s = .next t
      ∧ t = { s with flight := .idle, tables := t.tables }
      ∧ t.freq = false ∧ t.finit = 0
      ∧ (∀ n, after.get n = (s.tables.claims.get n).bind fun c =>
          if c.holder = i ∧ c.phase = .drainingOut .issued then none
          else if c.holder = i ∧ c.phase = .drainingDown .issued then
            some { c with phase := .held, mode := .shared }
          else some c)
      ∧ ((∃ e ∈ s.tables.claims, e.2.holder = i ∧ e.2.issuedDrain = true) →
          t.tables = grantPass { s.tables with claims := after })
      ∧ ((∀ e ∈ s.tables.claims, e.2.holder = i → e.2.issuedDrain = false) → t.tables = s.tables)

/-- FENCE_DEFER in TIMED: the timer is gone and the fence DEFERRED, with the request still high (R98, R102).  The
answers that are ignored: DONE and DEFER in IDLE, DEFER in DEFERRED, and a kind code of 2 or 3 in every state
(R101, R102, R108). -/
def Obligations.DeferStopsTheTimerAndStrayAnswersAreIgnored : Prop :=
  (∀ (s : State) (i : Initiator) (timer : Nat), s.inReset = false → s.flight = .timed i timer →
    ∃ t, exec .fenceDefer s = .next t ∧ t = { s with flight := .deferred i }
      ∧ t.freq = true ∧ t.finit = i)
  ∧ (∀ s : State, s.flight = .idle → exec .fenceDone s = .next s ∧ exec .fenceDefer s = .next s)
  ∧ (∀ (s : State) (i : Initiator), s.flight = .deferred i → exec .fenceDefer s = .next s)
  ∧ ∀ (s : State) (code : BitVec 2), 2 ≤ code.toNat → exec (.fenceAnswerOtherKind code) s = .next s

/-- A delivered tick at the fence unit lowers the timer of a TIMED fence by one and does nothing in IDLE and DEFERRED
(R103).  The tick that lowers the timer to 0 ends the fence, the ISSUED drains of its initiator become QUARANTINED, and
a grant pass runs if any record changed (R15, R104, R112); FENCE_TIMER_EXPIRY is that whole tick (log entry 5).  In
DORMANT no tick lowers the timer or fails the fence (R116, R172).  The model's choices: a delivered tick may wait at the
fence unit (log entry 6), until an issue that is due was made, as R97 asks, and FENCE_UNIT_TICK without a tick that can
be taken leaves the state (log entry 4). -/
def Obligations.FenceTicksLowerTheTimerUntilItFails : Prop :=
  ((∀ (s : State) (i : Initiator) (timer : Nat), s.inReset = false → s.dirState ≠ .dormant → s.fenceTick = true →
    s.flight = .timed i timer → 1 < timer →
    exec .fenceUnitTick s
      = .next { s with flight := .timed i (timer - 1), fenceTick := false, fenceTickHeld := false })
  ∧ (∀ s : State, s.inReset = false → s.dirState ≠ .dormant → s.fenceTick = true →
    ((s.flight = .idle ∧ (s.fenceTickHeld = false ∨ s.tables.fenceQueue = [])) ∨ ∃ i, s.flight = .deferred i) →
    exec .fenceUnitTick s = .next { s with fenceTick := false, fenceTickHeld := false })
  ∧ (∀ s : State, (s.inReset = true ∨ s.fenceTick = false
      ∨ (s.flight = .idle ∧ s.tables.fenceQueue ≠ [] ∧ s.fenceTickHeld = true)) →
    exec .fenceUnitTick s = .next s)
  ∧ ∀ (s : State) (c : Instr), s.dirState = .dormant → c ∈ [Instr.fenceTimerExpiry, .fenceUnitTick] →
    exec c s = .next s)
  ∧ ∀ (s : State) (i : Initiator) (c : Instr), s.inReset = false → s.dirState ≠ .dormant →
    s.tables.claims.Sorted → s.fenceTick = true → s.flight = .timed i 1 →
    c ∈ [Instr.fenceTimerExpiry, .fenceUnitTick] →
    ∃ t after, exec c s = .next t
      ∧ t = { s with flight := .idle, fenceTick := false, fenceTickHeld := false, tables := t.tables }
      ∧ t.freq = false ∧ t.finit = 0
      ∧ (∀ n, after.get n = (s.tables.claims.get n).map fun d =>
          if d.holder = i ∧ (d.phase = .drainingOut .issued ∨ d.phase = .drainingDown .issued) then
            { d with phase := .quarantined }
          else d)
      ∧ ((∃ e ∈ s.tables.claims, e.2.holder = i ∧ e.2.issuedDrain = true) →
          t.tables = grantPass { s.tables with claims := after })
      ∧ ((∀ e ∈ s.tables.claims, e.2.holder = i → e.2.issuedDrain = false) → t.tables = s.tables)

/-! ### Time (chapters 3, 4 and 9) -/

/-- TICK: REFCLK runs the countdown out, one tick falls, the countdown is reloaded, the tick is delivered to both
blocks unless the directory is DORMANT, and a window that ends on the way ends (R162, R175 to R177; that the command
runs to the tick is log entry 3).  A step on an empty queue is one period of REFCLK, whatever falls or ends with it
(that it is, is the model's choice, log entry 2).  A tick that still waits at a block is taken before time goes on, and
before a completion enters DORMANT (log entry 6). -/
def Obligations.TickIsDeliveredUnlessDormant : Prop :=
  (∀ s : State, s.inReset = false → ¬s.TickWaits → ∃ t, exec .tick s = .next t ∧ Elapsed s t s.countdown)
  ∧ (∀ s : State, s.pending = [] → s.inReset = false → ¬s.TickWaits → 0 < s.countdown →
    ∃ t, step s = .next t ∧ Elapsed s t 1)
  ∧ (∀ s : State, s.inReset = false → s.dirState ≠ .dormant → s.TickWaits → ∃ v, Settled s v ∧ ¬v.TickWaits
    ∧ exec .tick s = exec .tick v
    ∧ ((∃ o, s.ownership = some o ∧ o.submitted = false) →
        exec .ownershipWindowEnd s = exec .ownershipWindowEnd v)
    ∧ (s.pending = [] → step s = step v))
  ∧ ∀ (s : State) (m : MailboxId) (w : RequestWords) (k : RequestKind) (c : Instr), (k, c) ∈ requestCommands →
    s.Offers m k w → s.EntersDormancy m k → s.TickWaits →
    ∃ v, Settled s v ∧ v.Takes m k w ∧ exec c s = exec c v

/-- A delivered tick taken by the directory engine, whole: the expiries, the lapses with their fence-queue appends in
ascending order, every other wait remaining and lease lowered by one, and one grant pass if anything expired or lapsed
(R57, R80, R82, R86, R87; with a lease length of 1 a restarted lease ends on the next tick, log entry 15).  On a tick
on which nothing expires and nothing lapses no pass runs.  WAIT_EXPIRY: the tick on which a waiter's wait remaining
reaches 0 removes it and gives its initiator an EXPIRED notice, unless that initiator lapses on the same tick (R57, R86;
that the command is the whole tick is log entry 5).  In DORMANT no tick is taken (R56, R80, R172); that a delivered tick
may wait at the engine until then is log entry 6. -/
def Obligations.DirectoryTickLowersAndExpires : Prop :=
  (∀ s : State, s.inReset = false → s.dirState ≠ .dormant → s.engineTick = true → s.tables.claims.Sorted →
    ∃ t left, exec .directoryTick s = .next t ∧ t = { s with tables := t.tables, engineTick := false }
      ∧ Ticked s.tables left ∧ (TickPasses s.tables → t.tables = grantPass left)
      ∧ (¬TickPasses s.tables → t.tables = left))
  ∧ (∀ s : State, s.inReset = false → s.dirState ≠ .dormant → s.engineTick = true →
    (∀ v ∈ s.tables.queue, ∀ r, v.remaining = some r → 1 < r) →
    (∀ (i : Initiator) (l : Nat), s.tables.inits[i].state = .active l → 1 < l) →
    ∃ t inits, exec .directoryTick s = .next t
      ∧ t = { s with
          engineTick := false
          tables := { s.tables with
            queue := s.tables.queue.map fun v => { v with remaining := v.remaining.map (· - 1) }
            inits := inits } }
      ∧ ∀ i : Initiator, inits[i] = { s.tables.inits[i] with state := s.tables.inits[i].state.lowered })
  ∧ (∀ (s : State) (v : Waiter), s.inReset = false → s.dirState ≠ .dormant → s.engineTick = true →
    v ∈ s.tables.queue → v.remaining = some 1 → (s.tables.queue.map (·.ticket)).Nodup →
    (∀ x ∈ s.tables.queue, x.remaining ≠ some 0) →
    (∀ l, s.tables.inits[v.initiator].state = .active l → 1 < l) →
    ∃ t, exec (.waitExpiry v.ticket) s = .next t ∧ exec .directoryTick s = .next t
      ∧ t = { s with tables := t.tables, engineTick := false }
      ∧ (∀ x ∈ t.tables.queue, x.ticket ≠ v.ticket)
      ∧ (s.tables.inits[v.initiator].notices ++ (s.tables.queue.filter fun x =>
            decide (x.initiator = v.initiator ∧ x.remaining = some 1)).map fun x => ⟨x.ticket, .expired, x.tag⟩)
          <+: t.tables.inits[v.initiator].notices)
  ∧ ∀ (s : State) (ticket : Ticket) (i : Initiator) (c : Instr), s.dirState = .dormant →
    c ∈ [Instr.directoryTick, .waitExpiry ticket, .lapse i] → exec c s = .next s

/-- LAPSE: the tick on which a lease reaches 0 leaves the initiator LAPSED with its generation, without waiters and
notices, its HELD SHARED records no longer its own and its other live records draining out, appends it to the fence
queue after those of lower numbers that lapse with it, and runs one grant pass (R81, R82, R86, R87; that the command is
the whole tick is log entry 5, and that a delivered tick may wait at the engine, though not in DORMANT, log entry 6). -/
def Obligations.LapseRevokesEverythingHeld : Prop :=
  ∀ (s : State) (i : Initiator), s.inReset = false → s.dirState ≠ .dormant → s.engineTick = true →
    s.tables.WaitLaw → s.tables.inits[i].state = .active 1 →
    ∃ t left, exec (.lapse i) s = .next t ∧ exec .directoryTick s = .next t
      ∧ t = { s with tables := t.tables, engineTick := false }
      ∧ Ticked s.tables left ∧ t.tables = grantPass left ∧ t.tables.fenceQueue = left.fenceQueue
      ∧ t.tables.inits[i] = ⟨.lapsed, s.tables.inits[i].generation, []⟩
      ∧ (∀ x ∈ t.tables.queue, x.initiator ≠ i)
      ∧ (∀ e ∈ t.tables.claims, e.2.holder = i → e.2.live = false)
      ∧ ∀ n c, s.tables.claims.get n = some c → c.holder = i →
          (c.phase = .held → c.mode = .exclusive →
            i ∈ t.tables.fenceQueue
            ∧ ∃ d, t.tables.claims.get n = some { c with phase := .drainingOut .pending, upgradeTicket := d })
          ∧ ∀ stage, c.phase = .drainingDown stage →
            ∃ d, t.tables.claims.get n = some { c with phase := .drainingOut stage, upgradeTicket := d }

/-- A command whose event is not due leaves the state (the model's choice, log entry 4): a request that the arbiter
does not choose, a tick that is not delivered, an expiry or a lapse that the next tick does not bring. -/
def Obligations.CommandsNotDueChangeNothing : Prop :=
  (∀ (s : State) (k : RequestKind) (c : Instr), (k, c) ∈ requestCommands →
    (∀ m w, ¬s.Offers m k w) → exec c s = .next s)
  ∧ (∀ (s : State) (c : Instr) (i : Initiator) (ticket : Ticket), s.engineTick = false →
    c ∈ [Instr.directoryTick, .waitExpiry ticket, .lapse i] → exec c s = .next s)
  ∧ (∀ (s : State) (ticket : Ticket),
    (∀ v ∈ s.tables.queue, v.ticket = ticket → ∀ r, v.remaining = some r → 1 < r) →
    exec (.waitExpiry ticket) s = .next s)
  ∧ (∀ (s : State) (i : Initiator), (∀ l, s.tables.inits[i].state = .active l → 1 < l) →
    exec (.lapse i) s = .next s)
  ∧ ∀ s : State, (∀ i timer, s.flight = .timed i timer → 1 < timer) → exec .fenceTimerExpiry s = .next s

/-! ### Invariants -/

/-- The laws hold in the state after RESETN with every level of the straps, from any state, and so in State.reset, which
takes the straps low (the model's choice, log entry 1). -/
def Obligations.LawsHoldAtReset : Prop :=
  State.reset.AllLaws
    ∧ ∀ (pres : BitVec 2) (autoon mgrall : Bool) (s t : State), exec (.resetn pres autoon mgrall) s = .next t → t.AllLaws

/-- Every step keeps the laws of the wait queue: at most 64 waiters and 8 open tickets an initiator, the two runs,
distinct tickets that are not 0, and each UPGRADE waiter on a HELD SHARED record of its initiator that carries its
ticket (R8, R46, R48, R65, R67). -/
def Obligations.StepKeepsTheWaitQueueLaws : Prop :=
  ∀ s t : State, s.tables.WaitLaw → step s = .next t → t.tables.WaitLaw

/-- Every step keeps the coverage law: where two records cover one granule, both are HELD SHARED (R17). -/
def Obligations.StepKeepsTheCoverageLaw : Prop :=
  ∀ s t : State, s.tables.WaitLaw → s.tables.claims.Coverage → step s = .next t → t.tables.claims.Coverage

/-- Every step keeps the claim limit: no initiator has more live records and CLAIM waiters than it (R25). -/
def Obligations.StepKeepsTheClaimLimit : Prop :=
  ∀ s t : State, s.LimitLaw → step s = .next t → t.LimitLaw

/-- Every step leaves every waiter blocked (R53). -/
def Obligations.StepLeavesEveryWaiterBlocked : Prop :=
  ∀ s t : State, s.tables.WaitLaw → AllBlocked s.tables.claims [] s.tables.queue → step s = .next t →
    AllBlocked t.tables.claims [] t.tables.queue

/-- Every step keeps the wait-for relation free of cycles (R64). -/
def Obligations.StepKeepsTheRelationFreeOfCycles : Prop :=
  ∀ s t : State, s.tables.WaitLaw → s.tables.NoDeadlock → step s = .next t → t.tables.NoDeadlock

/-- Every step keeps the law of initiators that are not ACTIVE (no live record, no waiter, no notice: R72) and the fence
laws: an initiator stands once in the fence queue exactly while it has a PENDING drain, and ISSUED drains are those
of the fence in flight (R94, R96). -/
def Obligations.StepKeepsTheLawsOfInitiatorsAndFences : Prop :=
  (∀ s t : State, s.tables.IdleLaw → step s = .next t → t.tables.IdleLaw)
  ∧ ∀ s t : State, s.FenceLaws → step s = .next t → t.FenceLaws

/-- Every step keeps the law of OFF, no mailbox BUSY and no tick waiting in DORMANT (that ticks waiting are taken before
the entry is log entry 6), the flags of the mailboxes apart, the ABSENT initiators those at or above the present count,
initiator 0 a manager, and the counts of time in their ranges (R71, R96, R158, R166, R171 to R173, R176, R177). -/
def Obligations.StepKeepsTheLawsOfStatesFlagsAndCounts : Prop :=
  ((∀ s t : State, s.OffLaw → step s = .next t → t.OffLaw)
    ∧ ∀ s t : State, s.DormantLaw → step s = .next t → t.DormantLaw)
  ∧ (∀ s t : State, s.FlagLaw → step s = .next t → t.FlagLaw)
    ∧ (∀ s t : State, s.PresentLaw → step s = .next t → t.PresentLaw)
    ∧ (∀ s t : State, s.ManagerLaw → step s = .next t → t.ManagerLaw)
    ∧ ∀ s t : State, s.TimeLaw → step s = .next t → t.TimeLaw

end
end

