-- ==== Sys2Proof/Laws/State.lean ====
section
/-! SUPPORT. One lemma per field per update of the state, so that no later proof unfolds a record update:
the bus responses, the entry into DORMANT, the completion of a request, the passage of time, the teardown and
the fall of RESETn. -/

namespace Sys2Proof.Machine

/-! ### Bus responses -/

@[simp] theorem State.errorResponse_mailboxes (s : State) : s.errorResponse.mailboxes = s.mailboxes := rfl
@[simp] theorem State.errorResponse_mgmt (s : State) : s.errorResponse.mgmt = s.mgmt := rfl
@[simp] theorem State.errorResponse_ntfe (s : State) : s.errorResponse.ntfe = s.ntfe := rfl
@[simp] theorem State.errorResponse_cape (s : State) : s.errorResponse.cape = s.cape := rfl
@[simp] theorem State.errorResponse_qae (s : State) : s.errorResponse.qae = s.qae := rfl
@[simp] theorem State.errorResponse_submitter (s : State) : s.errorResponse.submitter = s.submitter := rfl
@[simp] theorem State.errorResponse_ownership (s : State) : s.errorResponse.ownership = s.ownership := rfl
@[simp] theorem State.errorResponse_arbiter (s : State) : s.errorResponse.arbiter = s.arbiter := rfl
@[simp] theorem State.errorResponse_tables (s : State) : s.errorResponse.tables = s.tables := rfl
@[simp] theorem State.errorResponse_flight (s : State) : s.errorResponse.flight = s.flight := rfl
@[simp] theorem State.errorResponse_fenceTick (s : State) : s.errorResponse.fenceTick = s.fenceTick := rfl
@[simp] theorem State.errorResponse_fenceTickHeld (s : State) : s.errorResponse.fenceTickHeld = s.fenceTickHeld :=
  rfl
@[simp] theorem State.errorResponse_capture (s : State) : s.errorResponse.capture = s.capture := rfl
@[simp] theorem State.errorResponse_overflow (s : State) : s.errorResponse.overflow = s.overflow := rfl
@[simp] theorem State.errorResponse_verdictOut (s : State) : s.errorResponse.verdictOut = s.verdictOut := rfl
@[simp] theorem State.errorResponse_usCount (s : State) : s.errorResponse.usCount = s.usCount := rfl
@[simp] theorem State.errorResponse_countdown (s : State) : s.errorResponse.countdown = s.countdown := rfl
@[simp] theorem State.errorResponse_engineTick (s : State) : s.errorResponse.engineTick = s.engineTick :=
  rfl
@[simp] theorem State.errorResponse_dirState (s : State) : s.errorResponse.dirState = s.dirState := rfl
@[simp] theorem State.errorResponse_config (s : State) : s.errorResponse.config = s.config := rfl
@[simp] theorem State.errorResponse_configRefused (s : State) : s.errorResponse.configRefused = s.configRefused :=
  rfl
@[simp] theorem State.errorResponse_straps (s : State) : s.errorResponse.straps = s.straps := rfl
@[simp] theorem State.errorResponse_inReset (s : State) : s.errorResponse.inReset = s.inReset := rfl
@[simp] theorem State.errorResponse_busOut (s : State) : s.errorResponse.busOut = some ⟨true, none⟩ := rfl
@[simp] theorem State.errorResponse_pending (s : State) : s.errorResponse.pending = s.pending := rfl

@[simp] theorem State.readyResponse_mailboxes (s : State) : s.readyResponse.mailboxes = s.mailboxes := rfl
@[simp] theorem State.readyResponse_mgmt (s : State) : s.readyResponse.mgmt = s.mgmt := rfl
@[simp] theorem State.readyResponse_ntfe (s : State) : s.readyResponse.ntfe = s.ntfe := rfl
@[simp] theorem State.readyResponse_cape (s : State) : s.readyResponse.cape = s.cape := rfl
@[simp] theorem State.readyResponse_qae (s : State) : s.readyResponse.qae = s.qae := rfl
@[simp] theorem State.readyResponse_submitter (s : State) : s.readyResponse.submitter = s.submitter := rfl
@[simp] theorem State.readyResponse_ownership (s : State) : s.readyResponse.ownership = s.ownership := rfl
@[simp] theorem State.readyResponse_arbiter (s : State) : s.readyResponse.arbiter = s.arbiter := rfl
@[simp] theorem State.readyResponse_tables (s : State) : s.readyResponse.tables = s.tables := rfl
@[simp] theorem State.readyResponse_flight (s : State) : s.readyResponse.flight = s.flight := rfl
@[simp] theorem State.readyResponse_fenceTick (s : State) : s.readyResponse.fenceTick = s.fenceTick := rfl
@[simp] theorem State.readyResponse_fenceTickHeld (s : State) : s.readyResponse.fenceTickHeld = s.fenceTickHeld :=
  rfl
@[simp] theorem State.readyResponse_capture (s : State) : s.readyResponse.capture = s.capture := rfl
@[simp] theorem State.readyResponse_overflow (s : State) : s.readyResponse.overflow = s.overflow := rfl
@[simp] theorem State.readyResponse_verdictOut (s : State) : s.readyResponse.verdictOut = s.verdictOut := rfl
@[simp] theorem State.readyResponse_usCount (s : State) : s.readyResponse.usCount = s.usCount := rfl
@[simp] theorem State.readyResponse_countdown (s : State) : s.readyResponse.countdown = s.countdown := rfl
@[simp] theorem State.readyResponse_engineTick (s : State) : s.readyResponse.engineTick = s.engineTick :=
  rfl
@[simp] theorem State.readyResponse_dirState (s : State) : s.readyResponse.dirState = s.dirState := rfl
@[simp] theorem State.readyResponse_config (s : State) : s.readyResponse.config = s.config := rfl
@[simp] theorem State.readyResponse_configRefused (s : State) : s.readyResponse.configRefused = s.configRefused :=
  rfl
@[simp] theorem State.readyResponse_straps (s : State) : s.readyResponse.straps = s.straps := rfl
@[simp] theorem State.readyResponse_inReset (s : State) : s.readyResponse.inReset = s.inReset := rfl
@[simp] theorem State.readyResponse_busOut (s : State) : s.readyResponse.busOut = some ⟨false, none⟩ := rfl
@[simp] theorem State.readyResponse_pending (s : State) : s.readyResponse.pending = s.pending := rfl

/-! ### The entry into DORMANT (R171) -/

@[simp] theorem State.enterDormancy_mailboxes (s : State) : s.enterDormancy.mailboxes = s.mailboxes :=
  by
  unfold State.enterDormancy; split <;> rfl
@[simp] theorem State.enterDormancy_mgmt (s : State) : s.enterDormancy.mgmt = s.mgmt :=
  by
  unfold State.enterDormancy; split <;> rfl
@[simp] theorem State.enterDormancy_ntfe (s : State) : s.enterDormancy.ntfe = s.ntfe :=
  by
  unfold State.enterDormancy; split <;> rfl
@[simp] theorem State.enterDormancy_cape (s : State) : s.enterDormancy.cape = s.cape :=
  by
  unfold State.enterDormancy; split <;> rfl
@[simp] theorem State.enterDormancy_qae (s : State) : s.enterDormancy.qae = s.qae :=
  by
  unfold State.enterDormancy; split <;> rfl
@[simp] theorem State.enterDormancy_submitter (s : State) : s.enterDormancy.submitter = s.submitter :=
  by
  unfold State.enterDormancy; split <;> rfl
@[simp] theorem State.enterDormancy_ownership (s : State) : s.enterDormancy.ownership = s.ownership :=
  by
  unfold State.enterDormancy; split <;> rfl
@[simp] theorem State.enterDormancy_arbiter (s : State) : s.enterDormancy.arbiter = s.arbiter :=
  by
  unfold State.enterDormancy; split <;> rfl
@[simp] theorem State.enterDormancy_tables (s : State) : s.enterDormancy.tables = s.tables :=
  by
  unfold State.enterDormancy; split <;> rfl
@[simp] theorem State.enterDormancy_flight (s : State) : s.enterDormancy.flight = s.flight :=
  by
  unfold State.enterDormancy; split <;> rfl
@[simp] theorem State.enterDormancy_fenceTick (s : State) : s.enterDormancy.fenceTick = s.fenceTick :=
  by
  unfold State.enterDormancy; split <;> rfl
@[simp] theorem State.enterDormancy_fenceTickHeld (s : State) : s.enterDormancy.fenceTickHeld = s.fenceTickHeld :=
  by
  unfold State.enterDormancy; split <;> rfl
@[simp] theorem State.enterDormancy_capture (s : State) : s.enterDormancy.capture = s.capture :=
  by
  unfold State.enterDormancy; split <;> rfl
@[simp] theorem State.enterDormancy_overflow (s : State) : s.enterDormancy.overflow = s.overflow :=
  by
  unfold State.enterDormancy; split <;> rfl
@[simp] theorem State.enterDormancy_verdictOut (s : State) : s.enterDormancy.verdictOut = s.verdictOut :=
  by
  unfold State.enterDormancy; split <;> rfl
@[simp] theorem State.enterDormancy_usCount (s : State) : s.enterDormancy.usCount = s.usCount :=
  by
  unfold State.enterDormancy; split <;> rfl
@[simp] theorem State.enterDormancy_countdown (s : State) : s.enterDormancy.countdown = s.countdown :=
  by
  unfold State.enterDormancy; split <;> rfl
@[simp] theorem State.enterDormancy_engineTick (s : State) : s.enterDormancy.engineTick = s.engineTick :=
  by
  unfold State.enterDormancy; split <;> rfl
@[simp] theorem State.enterDormancy_config (s : State) : s.enterDormancy.config = s.config :=
  by
  unfold State.enterDormancy; split <;> rfl
@[simp] theorem State.enterDormancy_configRefused (s : State) : s.enterDormancy.configRefused = s.configRefused :=
  by
  unfold State.enterDormancy; split <;> rfl
@[simp] theorem State.enterDormancy_straps (s : State) : s.enterDormancy.straps = s.straps :=
  by
  unfold State.enterDormancy; split <;> rfl
@[simp] theorem State.enterDormancy_inReset (s : State) : s.enterDormancy.inReset = s.inReset :=
  by
  unfold State.enterDormancy; split <;> rfl
@[simp] theorem State.enterDormancy_busOut (s : State) : s.enterDormancy.busOut = s.busOut :=
  by
  unfold State.enterDormancy; split <;> rfl
@[simp] theorem State.enterDormancy_pending (s : State) : s.enterDormancy.pending = s.pending :=
  by
  unfold State.enterDormancy; split <;> rfl

/-- The directory state after a completion's look for the entry into DORMANT. -/
theorem State.enterDormancy_dirState (s : State) :
    s.enterDormancy.dirState = if s.dirState = .quiescing ∧ s.anyBusy = false then .dormant else s.dirState := by
  unfold State.enterDormancy; split <;> rfl

/-! ### The completion of a request (R156) -/

@[simp] theorem State.complete_ntfe (s : State) (m : MailboxId) (r : Reply) : (s.complete m r).ntfe = s.ntfe :=
  by
  cases m <;> simp [State.complete]
@[simp] theorem State.complete_cape (s : State) (m : MailboxId) (r : Reply) : (s.complete m r).cape = s.cape :=
  by
  cases m <;> simp [State.complete]
@[simp] theorem State.complete_qae (s : State) (m : MailboxId) (r : Reply) : (s.complete m r).qae = s.qae :=
  by
  cases m <;> simp [State.complete]
@[simp] theorem State.complete_tables (s : State) (m : MailboxId) (r : Reply) : (s.complete m r).tables = s.tables :=
  by
  cases m <;> simp [State.complete]
@[simp] theorem State.complete_flight (s : State) (m : MailboxId) (r : Reply) : (s.complete m r).flight = s.flight :=
  by
  cases m <;> simp [State.complete]
@[simp] theorem State.complete_fenceTick (s : State) (m : MailboxId) (r : Reply) : (s.complete m r).fenceTick = s.fenceTick :=
  by
  cases m <;> simp [State.complete]
@[simp] theorem State.complete_fenceTickHeld (s : State) (m : MailboxId) (r : Reply) : (s.complete m r).fenceTickHeld = s.fenceTickHeld :=
  by
  cases m <;> simp [State.complete]
@[simp] theorem State.complete_capture (s : State) (m : MailboxId) (r : Reply) : (s.complete m r).capture = s.capture :=
  by
  cases m <;> simp [State.complete]
@[simp] theorem State.complete_overflow (s : State) (m : MailboxId) (r : Reply) : (s.complete m r).overflow = s.overflow :=
  by
  cases m <;> simp [State.complete]
@[simp] theorem State.complete_verdictOut (s : State) (m : MailboxId) (r : Reply) : (s.complete m r).verdictOut = s.verdictOut :=
  by
  cases m <;> simp [State.complete]
@[simp] theorem State.complete_usCount (s : State) (m : MailboxId) (r : Reply) : (s.complete m r).usCount = s.usCount :=
  by
  cases m <;> simp [State.complete]
@[simp] theorem State.complete_countdown (s : State) (m : MailboxId) (r : Reply) : (s.complete m r).countdown = s.countdown :=
  by
  cases m <;> simp [State.complete]
@[simp] theorem State.complete_engineTick (s : State) (m : MailboxId) (r : Reply) : (s.complete m r).engineTick = s.engineTick :=
  by
  cases m <;> simp [State.complete]
@[simp] theorem State.complete_config (s : State) (m : MailboxId) (r : Reply) : (s.complete m r).config = s.config :=
  by
  cases m <;> simp [State.complete]
@[simp] theorem State.complete_configRefused (s : State) (m : MailboxId) (r : Reply) : (s.complete m r).configRefused = s.configRefused :=
  by
  cases m <;> simp [State.complete]
@[simp] theorem State.complete_straps (s : State) (m : MailboxId) (r : Reply) : (s.complete m r).straps = s.straps :=
  by
  cases m <;> simp [State.complete]
@[simp] theorem State.complete_inReset (s : State) (m : MailboxId) (r : Reply) : (s.complete m r).inReset = s.inReset :=
  by
  cases m <;> simp [State.complete]
@[simp] theorem State.complete_busOut (s : State) (m : MailboxId) (r : Reply) : (s.complete m r).busOut = s.busOut :=
  by
  cases m <;> simp [State.complete]
@[simp] theorem State.complete_pending (s : State) (m : MailboxId) (r : Reply) : (s.complete m r).pending = s.pending :=
  by
  cases m <;> simp [State.complete]
@[simp] theorem State.complete_arbiter (s : State) (m : MailboxId) (r : Reply) : (s.complete m r).arbiter = m := by
  cases m <;> simp [State.complete]
@[simp] theorem State.complete_management_mgmt (s : State) (r : Reply) :
    (s.complete .management r).mgmt = s.mgmt.complete r := by
  simp [State.complete]
@[simp] theorem State.complete_management_mailboxes (s : State) (r : Reply) :
    (s.complete .management r).mailboxes = s.mailboxes := by
  simp [State.complete]
@[simp] theorem State.complete_management_submitter (s : State) (r : Reply) :
    (s.complete .management r).submitter = none := by
  simp [State.complete]
@[simp] theorem State.complete_management_ownership (s : State) (r : Reply) :
    (s.complete .management r).ownership = endOwnership s.submitter s.ownership := by
  simp [State.complete]
@[simp] theorem State.complete_initiator_mgmt (s : State) (i : Initiator) (r : Reply) :
    (s.complete (.initiator i) r).mgmt = s.mgmt := by
  simp [State.complete]
@[simp] theorem State.complete_initiator_mailboxes (s : State) (i : Initiator) (r : Reply) :
    (s.complete (.initiator i) r).mailboxes = s.mailboxes.set i (s.mailboxes[i].complete r) := by
  simp [State.complete]
@[simp] theorem State.complete_initiator_submitter (s : State) (i : Initiator) (r : Reply) :
    (s.complete (.initiator i) r).submitter = s.submitter := by
  simp [State.complete]
@[simp] theorem State.complete_initiator_ownership (s : State) (i : Initiator) (r : Reply) :
    (s.complete (.initiator i) r).ownership = s.ownership := by
  simp [State.complete]

/-! ### The mailbox at a completion (R156) and when its submission is abandoned (R164) -/

@[simp] theorem Mailbox.complete_request (mb : Mailbox) (r : Reply) : (mb.complete r).request = mb.request :=
  rfl
@[simp] theorem Mailbox.complete_captured (mb : Mailbox) (r : Reply) : (mb.complete r).captured = none := rfl
@[simp] theorem Mailbox.complete_done (mb : Mailbox) (r : Reply) : (mb.complete r).done = (mb.done || r.outcome.isSuccess) :=
  rfl
@[simp] theorem Mailbox.complete_error (mb : Mailbox) (r : Reply) : (mb.complete r).error = (mb.error || !r.outcome.isSuccess) :=
  rfl
@[simp] theorem Mailbox.complete_ovr (mb : Mailbox) (r : Reply) : (mb.complete r).ovr = mb.ovr := rfl
@[simp] theorem Mailbox.complete_cmpe (mb : Mailbox) (r : Reply) : (mb.complete r).cmpe = mb.cmpe := rfl
@[simp] theorem Mailbox.complete_result (mb : Mailbox) (r : Reply) : (mb.complete r).result = r.words := rfl
@[simp] theorem Mailbox.complete_busy (mb : Mailbox) (r : Reply) : (mb.complete r).busy = false := rfl
@[simp] theorem Mailbox.abandon_request (mb : Mailbox) : mb.abandon.request = mb.request := rfl
@[simp] theorem Mailbox.abandon_captured (mb : Mailbox) : mb.abandon.captured = none := rfl
@[simp] theorem Mailbox.abandon_done (mb : Mailbox) : mb.abandon.done = mb.done := rfl
@[simp] theorem Mailbox.abandon_error (mb : Mailbox) : mb.abandon.error = mb.error := rfl
@[simp] theorem Mailbox.abandon_ovr (mb : Mailbox) : mb.abandon.ovr = mb.ovr := rfl
@[simp] theorem Mailbox.abandon_cmpe (mb : Mailbox) : mb.abandon.cmpe = mb.cmpe := rfl
@[simp] theorem Mailbox.abandon_result (mb : Mailbox) : mb.abandon.result = mb.result := rfl
@[simp] theorem Mailbox.abandon_busy (mb : Mailbox) : mb.abandon.busy = false := rfl

/-! ### Ticks at the blocks (R86, R97, R103) -/

@[simp] theorem State.takeEngineTick_mailboxes (s : State) : (takeEngineTick s).mailboxes = s.mailboxes := by
  unfold takeEngineTick; split <;> rfl
@[simp] theorem State.takeEngineTick_mgmt (s : State) : (takeEngineTick s).mgmt = s.mgmt := by
  unfold takeEngineTick; split <;> rfl
@[simp] theorem State.takeEngineTick_ntfe (s : State) : (takeEngineTick s).ntfe = s.ntfe := by
  unfold takeEngineTick; split <;> rfl
@[simp] theorem State.takeEngineTick_cape (s : State) : (takeEngineTick s).cape = s.cape := by
  unfold takeEngineTick; split <;> rfl
@[simp] theorem State.takeEngineTick_qae (s : State) : (takeEngineTick s).qae = s.qae := by
  unfold takeEngineTick; split <;> rfl
@[simp] theorem State.takeEngineTick_submitter (s : State) : (takeEngineTick s).submitter = s.submitter := by
  unfold takeEngineTick; split <;> rfl
@[simp] theorem State.takeEngineTick_arbiter (s : State) : (takeEngineTick s).arbiter = s.arbiter := by
  unfold takeEngineTick; split <;> rfl
@[simp] theorem State.takeEngineTick_capture (s : State) : (takeEngineTick s).capture = s.capture := by
  unfold takeEngineTick; split <;> rfl
@[simp] theorem State.takeEngineTick_overflow (s : State) : (takeEngineTick s).overflow = s.overflow := by
  unfold takeEngineTick; split <;> rfl
@[simp] theorem State.takeEngineTick_verdictOut (s : State) :
    (takeEngineTick s).verdictOut = s.verdictOut := by
  unfold takeEngineTick; split <;> rfl
@[simp] theorem State.takeEngineTick_dirState (s : State) : (takeEngineTick s).dirState = s.dirState := by
  unfold takeEngineTick; split <;> rfl
@[simp] theorem State.takeEngineTick_config (s : State) : (takeEngineTick s).config = s.config := by
  unfold takeEngineTick; split <;> rfl
@[simp] theorem State.takeEngineTick_configRefused (s : State) :
    (takeEngineTick s).configRefused = s.configRefused := by
  unfold takeEngineTick; split <;> rfl
@[simp] theorem State.takeEngineTick_straps (s : State) : (takeEngineTick s).straps = s.straps := by
  unfold takeEngineTick; split <;> rfl
@[simp] theorem State.takeEngineTick_inReset (s : State) : (takeEngineTick s).inReset = s.inReset := by
  unfold takeEngineTick; split <;> rfl
@[simp] theorem State.takeEngineTick_busOut (s : State) : (takeEngineTick s).busOut = s.busOut := by
  unfold takeEngineTick; split <;> rfl
@[simp] theorem State.takeEngineTick_pending (s : State) : (takeEngineTick s).pending = s.pending := by
  unfold takeEngineTick; split <;> rfl
@[simp] theorem State.takeEngineTick_ownership (s : State) : (takeEngineTick s).ownership = s.ownership := by
  unfold takeEngineTick; split <;> rfl
@[simp] theorem State.takeEngineTick_usCount (s : State) : (takeEngineTick s).usCount = s.usCount := by
  unfold takeEngineTick; split <;> rfl
@[simp] theorem State.takeEngineTick_countdown (s : State) : (takeEngineTick s).countdown = s.countdown := by
  unfold takeEngineTick; split <;> rfl
@[simp] theorem State.takeEngineTick_flight (s : State) : (takeEngineTick s).flight = s.flight := by
  unfold takeEngineTick; split <;> rfl
@[simp] theorem State.takeEngineTick_fenceTick (s : State) : (takeEngineTick s).fenceTick = s.fenceTick := by
  unfold takeEngineTick; split <;> rfl
@[simp] theorem State.takeEngineTick_fenceTickHeld (s : State) :
    (takeEngineTick s).fenceTickHeld = s.fenceTickHeld := by
  unfold takeEngineTick; split <;> rfl
@[simp] theorem State.issueFence_mailboxes (s : State) : (issueFence s).mailboxes = s.mailboxes := by
  unfold issueFence; split; rfl; split <;> rfl
@[simp] theorem State.issueFence_mgmt (s : State) : (issueFence s).mgmt = s.mgmt := by
  unfold issueFence; split; rfl; split <;> rfl
@[simp] theorem State.issueFence_ntfe (s : State) : (issueFence s).ntfe = s.ntfe := by
  unfold issueFence; split; rfl; split <;> rfl
@[simp] theorem State.issueFence_cape (s : State) : (issueFence s).cape = s.cape := by
  unfold issueFence; split; rfl; split <;> rfl
@[simp] theorem State.issueFence_qae (s : State) : (issueFence s).qae = s.qae := by
  unfold issueFence; split; rfl; split <;> rfl
@[simp] theorem State.issueFence_submitter (s : State) : (issueFence s).submitter = s.submitter := by
  unfold issueFence; split; rfl; split <;> rfl
@[simp] theorem State.issueFence_arbiter (s : State) : (issueFence s).arbiter = s.arbiter := by
  unfold issueFence; split; rfl; split <;> rfl
@[simp] theorem State.issueFence_capture (s : State) : (issueFence s).capture = s.capture := by
  unfold issueFence; split; rfl; split <;> rfl
@[simp] theorem State.issueFence_overflow (s : State) : (issueFence s).overflow = s.overflow := by
  unfold issueFence; split; rfl; split <;> rfl
@[simp] theorem State.issueFence_verdictOut (s : State) : (issueFence s).verdictOut = s.verdictOut := by
  unfold issueFence; split; rfl; split <;> rfl
@[simp] theorem State.issueFence_dirState (s : State) : (issueFence s).dirState = s.dirState := by
  unfold issueFence; split; rfl; split <;> rfl
@[simp] theorem State.issueFence_config (s : State) : (issueFence s).config = s.config := by
  unfold issueFence; split; rfl; split <;> rfl
@[simp] theorem State.issueFence_configRefused (s : State) :
    (issueFence s).configRefused = s.configRefused := by
  unfold issueFence; split; rfl; split <;> rfl
@[simp] theorem State.issueFence_straps (s : State) : (issueFence s).straps = s.straps := by
  unfold issueFence; split; rfl; split <;> rfl
@[simp] theorem State.issueFence_inReset (s : State) : (issueFence s).inReset = s.inReset := by
  unfold issueFence; split; rfl; split <;> rfl
@[simp] theorem State.issueFence_busOut (s : State) : (issueFence s).busOut = s.busOut := by
  unfold issueFence; split; rfl; split <;> rfl
@[simp] theorem State.issueFence_pending (s : State) : (issueFence s).pending = s.pending := by
  unfold issueFence; split; rfl; split <;> rfl
@[simp] theorem State.issueFence_ownership (s : State) : (issueFence s).ownership = s.ownership := by
  unfold issueFence; split; rfl; split <;> rfl
@[simp] theorem State.issueFence_usCount (s : State) : (issueFence s).usCount = s.usCount := by
  unfold issueFence; split; rfl; split <;> rfl
@[simp] theorem State.issueFence_countdown (s : State) : (issueFence s).countdown = s.countdown := by
  unfold issueFence; split; rfl; split <;> rfl
@[simp] theorem State.issueFence_engineTick (s : State) : (issueFence s).engineTick = s.engineTick := by
  unfold issueFence; split; rfl; split <;> rfl
@[simp] theorem State.issueFence_fenceTick (s : State) : (issueFence s).fenceTick = s.fenceTick := by
  unfold issueFence; split; rfl; split <;> rfl
@[simp] theorem State.issueBeforeTick_mailboxes (s : State) :
    (issueBeforeTick s).mailboxes = s.mailboxes := by
  unfold issueBeforeTick; split <;> simp
@[simp] theorem State.issueBeforeTick_mgmt (s : State) : (issueBeforeTick s).mgmt = s.mgmt := by
  unfold issueBeforeTick; split <;> simp
@[simp] theorem State.issueBeforeTick_ntfe (s : State) : (issueBeforeTick s).ntfe = s.ntfe := by
  unfold issueBeforeTick; split <;> simp
@[simp] theorem State.issueBeforeTick_cape (s : State) : (issueBeforeTick s).cape = s.cape := by
  unfold issueBeforeTick; split <;> simp
@[simp] theorem State.issueBeforeTick_qae (s : State) : (issueBeforeTick s).qae = s.qae := by
  unfold issueBeforeTick; split <;> simp
@[simp] theorem State.issueBeforeTick_submitter (s : State) :
    (issueBeforeTick s).submitter = s.submitter := by
  unfold issueBeforeTick; split <;> simp
@[simp] theorem State.issueBeforeTick_arbiter (s : State) : (issueBeforeTick s).arbiter = s.arbiter := by
  unfold issueBeforeTick; split <;> simp
@[simp] theorem State.issueBeforeTick_capture (s : State) : (issueBeforeTick s).capture = s.capture := by
  unfold issueBeforeTick; split <;> simp
@[simp] theorem State.issueBeforeTick_overflow (s : State) : (issueBeforeTick s).overflow = s.overflow := by
  unfold issueBeforeTick; split <;> simp
@[simp] theorem State.issueBeforeTick_verdictOut (s : State) :
    (issueBeforeTick s).verdictOut = s.verdictOut := by
  unfold issueBeforeTick; split <;> simp
@[simp] theorem State.issueBeforeTick_dirState (s : State) : (issueBeforeTick s).dirState = s.dirState := by
  unfold issueBeforeTick; split <;> simp
@[simp] theorem State.issueBeforeTick_config (s : State) : (issueBeforeTick s).config = s.config := by
  unfold issueBeforeTick; split <;> simp
@[simp] theorem State.issueBeforeTick_configRefused (s : State) :
    (issueBeforeTick s).configRefused = s.configRefused := by
  unfold issueBeforeTick; split <;> simp
@[simp] theorem State.issueBeforeTick_straps (s : State) : (issueBeforeTick s).straps = s.straps := by
  unfold issueBeforeTick; split <;> simp
@[simp] theorem State.issueBeforeTick_inReset (s : State) : (issueBeforeTick s).inReset = s.inReset := by
  unfold issueBeforeTick; split <;> simp
@[simp] theorem State.issueBeforeTick_busOut (s : State) : (issueBeforeTick s).busOut = s.busOut := by
  unfold issueBeforeTick; split <;> simp
@[simp] theorem State.issueBeforeTick_pending (s : State) : (issueBeforeTick s).pending = s.pending := by
  unfold issueBeforeTick; split <;> simp
@[simp] theorem State.issueBeforeTick_ownership (s : State) :
    (issueBeforeTick s).ownership = s.ownership := by
  unfold issueBeforeTick; split <;> simp
@[simp] theorem State.issueBeforeTick_usCount (s : State) : (issueBeforeTick s).usCount = s.usCount := by
  unfold issueBeforeTick; split <;> simp
@[simp] theorem State.issueBeforeTick_countdown (s : State) :
    (issueBeforeTick s).countdown = s.countdown := by
  unfold issueBeforeTick; split <;> simp
@[simp] theorem State.issueBeforeTick_engineTick (s : State) :
    (issueBeforeTick s).engineTick = s.engineTick := by
  unfold issueBeforeTick; split <;> simp
@[simp] theorem State.issueBeforeTick_fenceTick (s : State) :
    (issueBeforeTick s).fenceTick = s.fenceTick := by
  unfold issueBeforeTick; split <;> simp
@[simp] theorem State.tickFlight_mailboxes (s : State) : (tickFlight s).mailboxes = s.mailboxes := by
  unfold tickFlight; split; (split <;> rfl); all_goals rfl
@[simp] theorem State.tickFlight_mgmt (s : State) : (tickFlight s).mgmt = s.mgmt := by
  unfold tickFlight; split; (split <;> rfl); all_goals rfl
@[simp] theorem State.tickFlight_ntfe (s : State) : (tickFlight s).ntfe = s.ntfe := by
  unfold tickFlight; split; (split <;> rfl); all_goals rfl
@[simp] theorem State.tickFlight_cape (s : State) : (tickFlight s).cape = s.cape := by
  unfold tickFlight; split; (split <;> rfl); all_goals rfl
@[simp] theorem State.tickFlight_qae (s : State) : (tickFlight s).qae = s.qae := by
  unfold tickFlight; split; (split <;> rfl); all_goals rfl
@[simp] theorem State.tickFlight_submitter (s : State) : (tickFlight s).submitter = s.submitter := by
  unfold tickFlight; split; (split <;> rfl); all_goals rfl
@[simp] theorem State.tickFlight_arbiter (s : State) : (tickFlight s).arbiter = s.arbiter := by
  unfold tickFlight; split; (split <;> rfl); all_goals rfl
@[simp] theorem State.tickFlight_capture (s : State) : (tickFlight s).capture = s.capture := by
  unfold tickFlight; split; (split <;> rfl); all_goals rfl
@[simp] theorem State.tickFlight_overflow (s : State) : (tickFlight s).overflow = s.overflow := by
  unfold tickFlight; split; (split <;> rfl); all_goals rfl
@[simp] theorem State.tickFlight_verdictOut (s : State) : (tickFlight s).verdictOut = s.verdictOut := by
  unfold tickFlight; split; (split <;> rfl); all_goals rfl
@[simp] theorem State.tickFlight_dirState (s : State) : (tickFlight s).dirState = s.dirState := by
  unfold tickFlight; split; (split <;> rfl); all_goals rfl
@[simp] theorem State.tickFlight_config (s : State) : (tickFlight s).config = s.config := by
  unfold tickFlight; split; (split <;> rfl); all_goals rfl
@[simp] theorem State.tickFlight_configRefused (s : State) :
    (tickFlight s).configRefused = s.configRefused := by
  unfold tickFlight; split; (split <;> rfl); all_goals rfl
@[simp] theorem State.tickFlight_straps (s : State) : (tickFlight s).straps = s.straps := by
  unfold tickFlight; split; (split <;> rfl); all_goals rfl
@[simp] theorem State.tickFlight_inReset (s : State) : (tickFlight s).inReset = s.inReset := by
  unfold tickFlight; split; (split <;> rfl); all_goals rfl
@[simp] theorem State.tickFlight_busOut (s : State) : (tickFlight s).busOut = s.busOut := by
  unfold tickFlight; split; (split <;> rfl); all_goals rfl
@[simp] theorem State.tickFlight_pending (s : State) : (tickFlight s).pending = s.pending := by
  unfold tickFlight; split; (split <;> rfl); all_goals rfl
@[simp] theorem State.tickFlight_ownership (s : State) : (tickFlight s).ownership = s.ownership := by
  unfold tickFlight; split; (split <;> rfl); all_goals rfl
@[simp] theorem State.tickFlight_usCount (s : State) : (tickFlight s).usCount = s.usCount := by
  unfold tickFlight; split; (split <;> rfl); all_goals rfl
@[simp] theorem State.tickFlight_countdown (s : State) : (tickFlight s).countdown = s.countdown := by
  unfold tickFlight; split; (split <;> rfl); all_goals rfl
@[simp] theorem State.tickFlight_engineTick (s : State) : (tickFlight s).engineTick = s.engineTick := by
  unfold tickFlight; split; (split <;> rfl); all_goals rfl
@[simp] theorem State.tickFlight_fenceTick (s : State) : (tickFlight s).fenceTick = s.fenceTick := by
  unfold tickFlight; split; (split <;> rfl); all_goals rfl
@[simp] theorem State.tickFlight_fenceTickHeld (s : State) :
    (tickFlight s).fenceTickHeld = s.fenceTickHeld := by
  unfold tickFlight; split; (split <;> rfl); all_goals rfl
@[simp] theorem State.takeFenceTick_mailboxes (s : State) : (takeFenceTick s).mailboxes = s.mailboxes := by
  unfold takeFenceTick; split; (rw [State.tickFlight_mailboxes]; rfl); rfl
@[simp] theorem State.takeFenceTick_mgmt (s : State) : (takeFenceTick s).mgmt = s.mgmt := by
  unfold takeFenceTick; split; (rw [State.tickFlight_mgmt]; rfl); rfl
@[simp] theorem State.takeFenceTick_ntfe (s : State) : (takeFenceTick s).ntfe = s.ntfe := by
  unfold takeFenceTick; split; (rw [State.tickFlight_ntfe]; rfl); rfl
@[simp] theorem State.takeFenceTick_cape (s : State) : (takeFenceTick s).cape = s.cape := by
  unfold takeFenceTick; split; (rw [State.tickFlight_cape]; rfl); rfl
@[simp] theorem State.takeFenceTick_qae (s : State) : (takeFenceTick s).qae = s.qae := by
  unfold takeFenceTick; split; (rw [State.tickFlight_qae]; rfl); rfl
@[simp] theorem State.takeFenceTick_submitter (s : State) : (takeFenceTick s).submitter = s.submitter := by
  unfold takeFenceTick; split; (rw [State.tickFlight_submitter]; rfl); rfl
@[simp] theorem State.takeFenceTick_arbiter (s : State) : (takeFenceTick s).arbiter = s.arbiter := by
  unfold takeFenceTick; split; (rw [State.tickFlight_arbiter]; rfl); rfl
@[simp] theorem State.takeFenceTick_capture (s : State) : (takeFenceTick s).capture = s.capture := by
  unfold takeFenceTick; split; (rw [State.tickFlight_capture]; rfl); rfl
@[simp] theorem State.takeFenceTick_overflow (s : State) : (takeFenceTick s).overflow = s.overflow := by
  unfold takeFenceTick; split; (rw [State.tickFlight_overflow]; rfl); rfl
@[simp] theorem State.takeFenceTick_verdictOut (s : State) : (takeFenceTick s).verdictOut = s.verdictOut := by
  unfold takeFenceTick; split; (rw [State.tickFlight_verdictOut]; rfl); rfl
@[simp] theorem State.takeFenceTick_dirState (s : State) : (takeFenceTick s).dirState = s.dirState := by
  unfold takeFenceTick; split; (rw [State.tickFlight_dirState]; rfl); rfl
@[simp] theorem State.takeFenceTick_config (s : State) : (takeFenceTick s).config = s.config := by
  unfold takeFenceTick; split; (rw [State.tickFlight_config]; rfl); rfl
@[simp] theorem State.takeFenceTick_configRefused (s : State) :
    (takeFenceTick s).configRefused = s.configRefused := by
  unfold takeFenceTick; split; (rw [State.tickFlight_configRefused]; rfl); rfl
@[simp] theorem State.takeFenceTick_straps (s : State) : (takeFenceTick s).straps = s.straps := by
  unfold takeFenceTick; split; (rw [State.tickFlight_straps]; rfl); rfl
@[simp] theorem State.takeFenceTick_inReset (s : State) : (takeFenceTick s).inReset = s.inReset := by
  unfold takeFenceTick; split; (rw [State.tickFlight_inReset]; rfl); rfl
@[simp] theorem State.takeFenceTick_busOut (s : State) : (takeFenceTick s).busOut = s.busOut := by
  unfold takeFenceTick; split; (rw [State.tickFlight_busOut]; rfl); rfl
@[simp] theorem State.takeFenceTick_pending (s : State) : (takeFenceTick s).pending = s.pending := by
  unfold takeFenceTick; split; (rw [State.tickFlight_pending]; rfl); rfl
@[simp] theorem State.takeFenceTick_ownership (s : State) : (takeFenceTick s).ownership = s.ownership := by
  unfold takeFenceTick; split; (rw [State.tickFlight_ownership]; rfl); rfl
@[simp] theorem State.takeFenceTick_usCount (s : State) : (takeFenceTick s).usCount = s.usCount := by
  unfold takeFenceTick; split; (rw [State.tickFlight_usCount]; rfl); rfl
@[simp] theorem State.takeFenceTick_countdown (s : State) : (takeFenceTick s).countdown = s.countdown := by
  unfold takeFenceTick; split; (rw [State.tickFlight_countdown]; rfl); rfl
@[simp] theorem State.takeFenceTick_engineTick (s : State) : (takeFenceTick s).engineTick = s.engineTick := by
  unfold takeFenceTick; split; (rw [State.tickFlight_engineTick]; rfl); rfl
@[simp] theorem State.settle_mailboxes (s : State) : (settle s).mailboxes = s.mailboxes := by
  simp [settle]
@[simp] theorem State.settle_mgmt (s : State) : (settle s).mgmt = s.mgmt := by
  simp [settle]
@[simp] theorem State.settle_ntfe (s : State) : (settle s).ntfe = s.ntfe := by
  simp [settle]
@[simp] theorem State.settle_cape (s : State) : (settle s).cape = s.cape := by
  simp [settle]
@[simp] theorem State.settle_qae (s : State) : (settle s).qae = s.qae := by
  simp [settle]
@[simp] theorem State.settle_submitter (s : State) : (settle s).submitter = s.submitter := by
  simp [settle]
@[simp] theorem State.settle_arbiter (s : State) : (settle s).arbiter = s.arbiter := by
  simp [settle]
@[simp] theorem State.settle_capture (s : State) : (settle s).capture = s.capture := by
  simp [settle]
@[simp] theorem State.settle_overflow (s : State) : (settle s).overflow = s.overflow := by
  simp [settle]
@[simp] theorem State.settle_verdictOut (s : State) : (settle s).verdictOut = s.verdictOut := by
  simp [settle]
@[simp] theorem State.settle_dirState (s : State) : (settle s).dirState = s.dirState := by
  simp [settle]
@[simp] theorem State.settle_config (s : State) : (settle s).config = s.config := by
  simp [settle]
@[simp] theorem State.settle_configRefused (s : State) : (settle s).configRefused = s.configRefused := by
  simp [settle]
@[simp] theorem State.settle_straps (s : State) : (settle s).straps = s.straps := by
  simp [settle]
@[simp] theorem State.settle_inReset (s : State) : (settle s).inReset = s.inReset := by
  simp [settle]
@[simp] theorem State.settle_busOut (s : State) : (settle s).busOut = s.busOut := by
  simp [settle]
@[simp] theorem State.settle_pending (s : State) : (settle s).pending = s.pending := by
  simp [settle]
@[simp] theorem State.settle_ownership (s : State) : (settle s).ownership = s.ownership := by
  simp [settle]
@[simp] theorem State.settle_usCount (s : State) : (settle s).usCount = s.usCount := by
  simp [settle]
@[simp] theorem State.settle_countdown (s : State) : (settle s).countdown = s.countdown := by
  simp [settle]
@[simp] theorem State.settle_engineTick (s : State) : (settle s).engineTick = (takeEngineTick s).engineTick := by
  simp [settle]

/-! ### Time (R175 to R177) -/

@[simp] theorem State.advance_mailboxes (n : Nat) (s : State) : (advance n s).mailboxes = s.mailboxes := rfl
@[simp] theorem State.advance_mgmt (n : Nat) (s : State) : (advance n s).mgmt = s.mgmt := rfl
@[simp] theorem State.advance_ntfe (n : Nat) (s : State) : (advance n s).ntfe = s.ntfe := rfl
@[simp] theorem State.advance_cape (n : Nat) (s : State) : (advance n s).cape = s.cape := rfl
@[simp] theorem State.advance_qae (n : Nat) (s : State) : (advance n s).qae = s.qae := rfl
@[simp] theorem State.advance_submitter (n : Nat) (s : State) : (advance n s).submitter = s.submitter := rfl
@[simp] theorem State.advance_arbiter (n : Nat) (s : State) : (advance n s).arbiter = s.arbiter := rfl
@[simp] theorem State.advance_capture (n : Nat) (s : State) : (advance n s).capture = s.capture := rfl
@[simp] theorem State.advance_overflow (n : Nat) (s : State) : (advance n s).overflow = s.overflow := rfl
@[simp] theorem State.advance_verdictOut (n : Nat) (s : State) : (advance n s).verdictOut = s.verdictOut := rfl
@[simp] theorem State.advance_dirState (n : Nat) (s : State) : (advance n s).dirState = s.dirState := rfl
@[simp] theorem State.advance_config (n : Nat) (s : State) : (advance n s).config = s.config := rfl
@[simp] theorem State.advance_configRefused (n : Nat) (s : State) :
    (advance n s).configRefused = s.configRefused := rfl
@[simp] theorem State.advance_straps (n : Nat) (s : State) : (advance n s).straps = s.straps := rfl
@[simp] theorem State.advance_inReset (n : Nat) (s : State) : (advance n s).inReset = s.inReset := rfl
@[simp] theorem State.advance_busOut (n : Nat) (s : State) : (advance n s).busOut = s.busOut := rfl
@[simp] theorem State.advance_pending (n : Nat) (s : State) : (advance n s).pending = s.pending := rfl
@[simp] theorem State.advance_tables (n : Nat) (s : State) : (advance n s).tables = s.tables := rfl
@[simp] theorem State.advance_flight (n : Nat) (s : State) : (advance n s).flight = s.flight := rfl
@[simp] theorem State.elapse_mailboxes (n : Nat) (s : State) : (elapse n s).mailboxes = s.mailboxes := by
  unfold elapse; split <;> simp
@[simp] theorem State.elapse_mgmt (n : Nat) (s : State) : (elapse n s).mgmt = s.mgmt := by
  unfold elapse; split <;> simp
@[simp] theorem State.elapse_ntfe (n : Nat) (s : State) : (elapse n s).ntfe = s.ntfe := by
  unfold elapse; split <;> simp
@[simp] theorem State.elapse_cape (n : Nat) (s : State) : (elapse n s).cape = s.cape := by
  unfold elapse; split <;> simp
@[simp] theorem State.elapse_qae (n : Nat) (s : State) : (elapse n s).qae = s.qae := by
  unfold elapse; split <;> simp
@[simp] theorem State.elapse_submitter (n : Nat) (s : State) : (elapse n s).submitter = s.submitter := by
  unfold elapse; split <;> simp
@[simp] theorem State.elapse_arbiter (n : Nat) (s : State) : (elapse n s).arbiter = s.arbiter := by
  unfold elapse; split <;> simp
@[simp] theorem State.elapse_capture (n : Nat) (s : State) : (elapse n s).capture = s.capture := by
  unfold elapse; split <;> simp
@[simp] theorem State.elapse_overflow (n : Nat) (s : State) : (elapse n s).overflow = s.overflow := by
  unfold elapse; split <;> simp
@[simp] theorem State.elapse_verdictOut (n : Nat) (s : State) : (elapse n s).verdictOut = s.verdictOut := by
  unfold elapse; split <;> simp
@[simp] theorem State.elapse_dirState (n : Nat) (s : State) : (elapse n s).dirState = s.dirState := by
  unfold elapse; split <;> simp
@[simp] theorem State.elapse_config (n : Nat) (s : State) : (elapse n s).config = s.config := by
  unfold elapse; split <;> simp
@[simp] theorem State.elapse_configRefused (n : Nat) (s : State) :
    (elapse n s).configRefused = s.configRefused := by
  unfold elapse; split <;> simp
@[simp] theorem State.elapse_straps (n : Nat) (s : State) : (elapse n s).straps = s.straps := by
  unfold elapse; split <;> simp
@[simp] theorem State.elapse_inReset (n : Nat) (s : State) : (elapse n s).inReset = s.inReset := by
  unfold elapse; split <;> simp
@[simp] theorem State.elapse_busOut (n : Nat) (s : State) : (elapse n s).busOut = s.busOut := by
  unfold elapse; split <;> simp
@[simp] theorem State.elapse_pending (n : Nat) (s : State) : (elapse n s).pending = s.pending := by
  unfold elapse; split <;> simp
@[simp] theorem State.runTicks_mailboxes (k : Nat) (s : State) : (runTicks k s).mailboxes = s.mailboxes := by
  induction k generalizing s with
  | zero => rfl
  | succ k ih => rw [runTicks, ih, runToTick, State.elapse_mailboxes]
@[simp] theorem State.runTicks_mgmt (k : Nat) (s : State) : (runTicks k s).mgmt = s.mgmt := by
  induction k generalizing s with
  | zero => rfl
  | succ k ih => rw [runTicks, ih, runToTick, State.elapse_mgmt]
@[simp] theorem State.runTicks_ntfe (k : Nat) (s : State) : (runTicks k s).ntfe = s.ntfe := by
  induction k generalizing s with
  | zero => rfl
  | succ k ih => rw [runTicks, ih, runToTick, State.elapse_ntfe]
@[simp] theorem State.runTicks_cape (k : Nat) (s : State) : (runTicks k s).cape = s.cape := by
  induction k generalizing s with
  | zero => rfl
  | succ k ih => rw [runTicks, ih, runToTick, State.elapse_cape]
@[simp] theorem State.runTicks_qae (k : Nat) (s : State) : (runTicks k s).qae = s.qae := by
  induction k generalizing s with
  | zero => rfl
  | succ k ih => rw [runTicks, ih, runToTick, State.elapse_qae]
@[simp] theorem State.runTicks_submitter (k : Nat) (s : State) : (runTicks k s).submitter = s.submitter := by
  induction k generalizing s with
  | zero => rfl
  | succ k ih => rw [runTicks, ih, runToTick, State.elapse_submitter]
@[simp] theorem State.runTicks_arbiter (k : Nat) (s : State) : (runTicks k s).arbiter = s.arbiter := by
  induction k generalizing s with
  | zero => rfl
  | succ k ih => rw [runTicks, ih, runToTick, State.elapse_arbiter]
@[simp] theorem State.runTicks_capture (k : Nat) (s : State) : (runTicks k s).capture = s.capture := by
  induction k generalizing s with
  | zero => rfl
  | succ k ih => rw [runTicks, ih, runToTick, State.elapse_capture]
@[simp] theorem State.runTicks_overflow (k : Nat) (s : State) : (runTicks k s).overflow = s.overflow := by
  induction k generalizing s with
  | zero => rfl
  | succ k ih => rw [runTicks, ih, runToTick, State.elapse_overflow]
@[simp] theorem State.runTicks_verdictOut (k : Nat) (s : State) :
    (runTicks k s).verdictOut = s.verdictOut := by
  induction k generalizing s with
  | zero => rfl
  | succ k ih => rw [runTicks, ih, runToTick, State.elapse_verdictOut]
@[simp] theorem State.runTicks_dirState (k : Nat) (s : State) : (runTicks k s).dirState = s.dirState := by
  induction k generalizing s with
  | zero => rfl
  | succ k ih => rw [runTicks, ih, runToTick, State.elapse_dirState]
@[simp] theorem State.runTicks_config (k : Nat) (s : State) : (runTicks k s).config = s.config := by
  induction k generalizing s with
  | zero => rfl
  | succ k ih => rw [runTicks, ih, runToTick, State.elapse_config]
@[simp] theorem State.runTicks_configRefused (k : Nat) (s : State) :
    (runTicks k s).configRefused = s.configRefused := by
  induction k generalizing s with
  | zero => rfl
  | succ k ih => rw [runTicks, ih, runToTick, State.elapse_configRefused]
@[simp] theorem State.runTicks_straps (k : Nat) (s : State) : (runTicks k s).straps = s.straps := by
  induction k generalizing s with
  | zero => rfl
  | succ k ih => rw [runTicks, ih, runToTick, State.elapse_straps]
@[simp] theorem State.runTicks_inReset (k : Nat) (s : State) : (runTicks k s).inReset = s.inReset := by
  induction k generalizing s with
  | zero => rfl
  | succ k ih => rw [runTicks, ih, runToTick, State.elapse_inReset]
@[simp] theorem State.runTicks_busOut (k : Nat) (s : State) : (runTicks k s).busOut = s.busOut := by
  induction k generalizing s with
  | zero => rfl
  | succ k ih => rw [runTicks, ih, runToTick, State.elapse_busOut]
@[simp] theorem State.runTicks_pending (k : Nat) (s : State) : (runTicks k s).pending = s.pending := by
  induction k generalizing s with
  | zero => rfl
  | succ k ih => rw [runTicks, ih, runToTick, State.elapse_pending]
@[simp] theorem State.runToWindowEnd_mailboxes (s : State) : (runToWindowEnd s).mailboxes = s.mailboxes := by
  unfold runToWindowEnd endWindow; split; (split <;> simp); rfl
@[simp] theorem State.runToWindowEnd_mgmt (s : State) : (runToWindowEnd s).mgmt = s.mgmt := by
  unfold runToWindowEnd endWindow; split; (split <;> simp); rfl
@[simp] theorem State.runToWindowEnd_ntfe (s : State) : (runToWindowEnd s).ntfe = s.ntfe := by
  unfold runToWindowEnd endWindow; split; (split <;> simp); rfl
@[simp] theorem State.runToWindowEnd_cape (s : State) : (runToWindowEnd s).cape = s.cape := by
  unfold runToWindowEnd endWindow; split; (split <;> simp); rfl
@[simp] theorem State.runToWindowEnd_qae (s : State) : (runToWindowEnd s).qae = s.qae := by
  unfold runToWindowEnd endWindow; split; (split <;> simp); rfl
@[simp] theorem State.runToWindowEnd_submitter (s : State) : (runToWindowEnd s).submitter = s.submitter := by
  unfold runToWindowEnd endWindow; split; (split <;> simp); rfl
@[simp] theorem State.runToWindowEnd_arbiter (s : State) : (runToWindowEnd s).arbiter = s.arbiter := by
  unfold runToWindowEnd endWindow; split; (split <;> simp); rfl
@[simp] theorem State.runToWindowEnd_capture (s : State) : (runToWindowEnd s).capture = s.capture := by
  unfold runToWindowEnd endWindow; split; (split <;> simp); rfl
@[simp] theorem State.runToWindowEnd_overflow (s : State) : (runToWindowEnd s).overflow = s.overflow := by
  unfold runToWindowEnd endWindow; split; (split <;> simp); rfl
@[simp] theorem State.runToWindowEnd_verdictOut (s : State) :
    (runToWindowEnd s).verdictOut = s.verdictOut := by
  unfold runToWindowEnd endWindow; split; (split <;> simp); rfl
@[simp] theorem State.runToWindowEnd_dirState (s : State) : (runToWindowEnd s).dirState = s.dirState := by
  unfold runToWindowEnd endWindow; split; (split <;> simp); rfl
@[simp] theorem State.runToWindowEnd_config (s : State) : (runToWindowEnd s).config = s.config := by
  unfold runToWindowEnd endWindow; split; (split <;> simp); rfl
@[simp] theorem State.runToWindowEnd_configRefused (s : State) :
    (runToWindowEnd s).configRefused = s.configRefused := by
  unfold runToWindowEnd endWindow; split; (split <;> simp); rfl
@[simp] theorem State.runToWindowEnd_straps (s : State) : (runToWindowEnd s).straps = s.straps := by
  unfold runToWindowEnd endWindow; split; (split <;> simp); rfl
@[simp] theorem State.runToWindowEnd_inReset (s : State) : (runToWindowEnd s).inReset = s.inReset := by
  unfold runToWindowEnd endWindow; split; (split <;> simp); rfl
@[simp] theorem State.runToWindowEnd_busOut (s : State) : (runToWindowEnd s).busOut = s.busOut := by
  unfold runToWindowEnd endWindow; split; (split <;> simp); rfl
@[simp] theorem State.runToWindowEnd_pending (s : State) : (runToWindowEnd s).pending = s.pending := by
  unfold runToWindowEnd endWindow; split; (split <;> simp); rfl

/-! ### The teardown (R168) -/

@[simp] theorem State.teardown_mailboxes (s : State) : (teardown s).mailboxes = s.mailboxes := rfl
@[simp] theorem State.teardown_mgmt (s : State) : (teardown s).mgmt = s.mgmt := rfl
@[simp] theorem State.teardown_ntfe (s : State) : (teardown s).ntfe = s.ntfe := rfl
@[simp] theorem State.teardown_cape (s : State) : (teardown s).cape = s.cape := rfl
@[simp] theorem State.teardown_qae (s : State) : (teardown s).qae = s.qae := rfl
@[simp] theorem State.teardown_submitter (s : State) : (teardown s).submitter = s.submitter := rfl
@[simp] theorem State.teardown_ownership (s : State) : (teardown s).ownership = s.ownership := rfl
@[simp] theorem State.teardown_arbiter (s : State) : (teardown s).arbiter = s.arbiter := rfl
@[simp] theorem State.teardown_tables (s : State) : (teardown s).tables = teardownTables s.tables := rfl
@[simp] theorem State.teardown_flight (s : State) : (teardown s).flight = .idle := rfl
@[simp] theorem State.teardown_fenceTick (s : State) : (teardown s).fenceTick = s.fenceTick := rfl
@[simp] theorem State.teardown_fenceTickHeld (s : State) : (teardown s).fenceTickHeld = false := rfl
@[simp] theorem State.teardown_capture (s : State) : (teardown s).capture = none := rfl
@[simp] theorem State.teardown_overflow (s : State) : (teardown s).overflow = false := rfl
@[simp] theorem State.teardown_verdictOut (s : State) : (teardown s).verdictOut = s.verdictOut := rfl
@[simp] theorem State.teardown_usCount (s : State) : (teardown s).usCount = s.usCount := rfl
@[simp] theorem State.teardown_countdown (s : State) : (teardown s).countdown = s.countdown := rfl
@[simp] theorem State.teardown_engineTick (s : State) : (teardown s).engineTick = s.engineTick := rfl
@[simp] theorem State.teardown_dirState (s : State) : (teardown s).dirState = .off := rfl
@[simp] theorem State.teardown_config (s : State) : (teardown s).config = s.config := rfl
@[simp] theorem State.teardown_configRefused (s : State) : (teardown s).configRefused = false := rfl
@[simp] theorem State.teardown_straps (s : State) : (teardown s).straps = s.straps := rfl
@[simp] theorem State.teardown_inReset (s : State) : (teardown s).inReset = s.inReset := rfl
@[simp] theorem State.teardown_busOut (s : State) : (teardown s).busOut = s.busOut := rfl
@[simp] theorem State.teardown_pending (s : State) : (teardown s).pending = s.pending := rfl

/-! ### The fall of RESETn (R179) -/

@[simp] theorem State.assertReset_mgmt (s : State) : (assertReset s).mgmt = s.mgmt.abandon := rfl
@[simp] theorem State.assertReset_ntfe (s : State) : (assertReset s).ntfe = s.ntfe := rfl
@[simp] theorem State.assertReset_cape (s : State) : (assertReset s).cape = s.cape := rfl
@[simp] theorem State.assertReset_qae (s : State) : (assertReset s).qae = s.qae := rfl
@[simp] theorem State.assertReset_submitter (s : State) : (assertReset s).submitter = none := rfl
@[simp] theorem State.assertReset_ownership (s : State) : (assertReset s).ownership = s.ownership := rfl
@[simp] theorem State.assertReset_arbiter (s : State) : (assertReset s).arbiter = s.arbiter := rfl
@[simp] theorem State.assertReset_tables (s : State) : (assertReset s).tables = s.tables := rfl
@[simp] theorem State.assertReset_flight (s : State) : (assertReset s).flight = .idle := rfl
@[simp] theorem State.assertReset_fenceTick (s : State) : (assertReset s).fenceTick = s.fenceTick := rfl
@[simp] theorem State.assertReset_fenceTickHeld (s : State) : (assertReset s).fenceTickHeld = s.fenceTickHeld :=
  rfl
@[simp] theorem State.assertReset_capture (s : State) : (assertReset s).capture = s.capture := rfl
@[simp] theorem State.assertReset_overflow (s : State) : (assertReset s).overflow = s.overflow := rfl
@[simp] theorem State.assertReset_verdictOut (s : State) : (assertReset s).verdictOut = none := rfl
@[simp] theorem State.assertReset_usCount (s : State) : (assertReset s).usCount = s.usCount := rfl
@[simp] theorem State.assertReset_countdown (s : State) : (assertReset s).countdown = s.countdown := rfl
@[simp] theorem State.assertReset_engineTick (s : State) : (assertReset s).engineTick = s.engineTick := rfl
@[simp] theorem State.assertReset_dirState (s : State) : (assertReset s).dirState = s.dirState := rfl
@[simp] theorem State.assertReset_config (s : State) : (assertReset s).config = s.config := rfl
@[simp] theorem State.assertReset_configRefused (s : State) : (assertReset s).configRefused = s.configRefused :=
  rfl
@[simp] theorem State.assertReset_straps (s : State) : (assertReset s).straps = s.straps := rfl
@[simp] theorem State.assertReset_inReset (s : State) : (assertReset s).inReset = true := rfl
@[simp] theorem State.assertReset_busOut (s : State) : (assertReset s).busOut = s.busOut := rfl
@[simp] theorem State.assertReset_pending (s : State) : (assertReset s).pending = s.pending := rfl
@[simp] theorem State.assertReset_mailboxes (s : State) (i : Initiator) :
    (assertReset s).mailboxes[i.val] = s.mailboxes[i.val].abandon := by
  fin_cases i <;> rfl

/-! ### The release of RESETn (R179) -/

/-- `State.reset` is what the release of RESETn makes with the straps of log entry 1 and an empty queue. -/
theorem releaseReset_config :
    releaseReset Config.strapPres Config.strapAutoon Config.strapMgrall State.reset = State.reset := by
  decide

end Sys2Proof.Machine
end

