-- ==== Sys2Proof/Laws/Bus.lean ====
section
/-! SUPPORT. Bus accesses, each said once: which region an offset names, and what a write is when it is answered
ready in each region and when it is answered with an error response. -/

namespace Sys2Proof.Machine

/-! ### Regions (R149) -/

theorem regionOf_management {addr : BitVec 8} (h : addr.toNat < 16) :
    regionOf addr = .management addr.toNat := by
  simp [regionOf, h]

theorem regionOf_config {addr : BitVec 8} (h : 16 ≤ addr.toNat) (h' : addr.toNat < 32) :
    regionOf addr = .config (addr.toNat - 16) := by
  simp [regionOf, h', Nat.not_lt.mpr h]

theorem regionOf_status {addr : BitVec 8} (h : 32 ≤ addr.toNat) (h' : addr.toNat < 48) :
    regionOf addr = .status (addr.toNat - 32) := by
  simp [regionOf, h', Nat.not_lt.mpr h, show ¬addr.toNat < 16 by omega]

theorem regionOf_mailbox {addr : BitVec 8} {i : Initiator} {word : Nat} (hw : word < 16)
    (h : addr.toNat = 64 + 16 * i.val + word) : regionOf addr = .mailbox i word := by
  have hi := i.isLt
  simp only [regionOf, show ¬addr.toNat < 16 by omega, show ¬addr.toNat < 32 by omega,
    show ¬addr.toNat < 48 by omega, show ¬addr.toNat < 64 by omega, show addr.toNat < 192 by omega,
    if_false, dif_pos]
  congr 1
  · exact Fin.ext (by simp only; omega)
  · omega

theorem regionOf_unused {addr : BitVec 8} (h : (48 ≤ addr.toNat ∧ addr.toNat < 64) ∨ 192 ≤ addr.toNat) :
    regionOf addr = .unused := by
  simp only [regionOf, show ¬addr.toNat < 16 by omega, show ¬addr.toNat < 32 by omega,
    show ¬addr.toNat < 48 by omega, if_false]
  split
  · rfl
  · rw [dif_neg (by omega)]

@[simp] theorem regionOf_mailboxBase_management : regionOf (mailboxBase .management) = .management 0 := rfl

@[simp] theorem regionOf_mailboxBase_initiator (i : Initiator) :
    regionOf (mailboxBase (.initiator i)) = .mailbox i 0 := by
  refine regionOf_mailbox (by omega) ?_
  simp only [mailboxBase, BitVec.toNat_ofNat]
  omega

@[simp] theorem regionOf_configWord (reg : ConfigReg) :
    regionOf (BitVec.ofNat 8 (16 + configWord reg)) = .config (configWord reg) := by
  cases reg <;> rfl

@[simp] theorem regionOf_refusalWord : regionOf (BitVec.ofNat 8 (16 + refusalWord)) = .config refusalWord := rfl

@[simp] theorem configRegAt_configWord (reg : ConfigReg) : configRegAt (configWord reg) = some reg := by
  cases reg <;> rfl

@[simp] theorem configRegAt_refusalWord : configRegAt refusalWord = none := rfl

/-! ### Writes (R150) -/

theorem busWrite_of_ready {who : Initiator} {addr : BitVec 8} {data : Word} {s : State}
    (hr : s.inReset = false) (hp : s.tables.inits[who].state ≠ .absent)
    (hm : s.mayWrite who (regionOf addr) = true) :
    busWrite who addr data s = (writeRegion who data s (regionOf addr)).readyResponse := by
  unfold busWrite
  rw [if_neg]
  simp [hr, hm, State.isAbsent]
  simpa using hp

/-- A write to a word of the writer's own mailbox. -/
theorem busWrite_own {who : Initiator} {addr : BitVec 8} {word : Nat} {data : Word} {s : State}
    (h : OwnAccess s who) (ha : regionOf addr = .mailbox who word) :
    busWrite who addr data s = (writeInitiator who word data s).readyResponse := by
  rw [busWrite_of_ready h.running h.present (by rw [ha]; simp [State.mayWrite]), ha]
  rfl

/-- A write of a manager to a word of the management mailbox. -/
theorem busWrite_management {who : Initiator} {addr : BitVec 8} {word : Nat} {data : Word} {s : State}
    (h : ManagerAccess s who) (ha : regionOf addr = .management word) :
    busWrite who addr data s = (writeManagement who word data s).readyResponse := by
  rw [busWrite_of_ready h.running h.present (by rw [ha]; exact h.manager), ha]
  rfl

/-- A write of a manager to a word of the configuration region. -/
theorem busWrite_config {who : Initiator} {addr : BitVec 8} {word : Nat} {data : Word} {s : State}
    (h : ManagerAccess s who) (ha : regionOf addr = .config word) :
    busWrite who addr data s = (writeConfig word data s).readyResponse := by
  rw [busWrite_of_ready h.running h.present (by rw [ha]; exact h.manager), ha]
  rfl

/-- A write to the status block or to an unused offset: ready, and nothing else. -/
theorem busWrite_ignored {who : Initiator} {addr : BitVec 8} {data : Word} {s : State}
    (h : OwnAccess s who) (ha : (∃ word, regionOf addr = .status word) ∨ regionOf addr = .unused) :
    busWrite who addr data s = s.readyResponse := by
  rcases ha with ⟨word, ha⟩ | ha <;>
    rw [busWrite_of_ready h.running h.present (by rw [ha]; rfl), ha] <;> rfl

/-- A write answered with an error response: RESETn low, an ABSENT writer, or no right. -/
theorem busWrite_refused {who : Initiator} {addr : BitVec 8} {data : Word} {s : State}
    (h : s.inReset = true ∨ s.tables.inits[who].state = .absent ∨ s.mayWrite who (regionOf addr) = false) :
    busWrite who addr data s = s.errorResponse := by
  unfold busWrite
  rw [if_pos]
  rcases h with h | h | h
  · simp [h]
  · simp [State.isAbsent, show s.tables.inits[who.val].state = _ from h]
  · simp [h]

/-! ### START in the data of a write to word 0 -/

theorem startMask_getElem : ∀ j : Fin 32, (0xFFFFFFFE : Word)[j.val] = decide (j.val ≠ 0) := by
  decide

/-- The data with START as 0 has every other bit of the data. -/
@[simp] theorem withoutStart_getElem (data : Word) (k : Nat) (hk : k < 32) :
    (withoutStart data)[k] = (data[k] && decide (k ≠ 0)) := by
  simp only [withoutStart, BitVec.getElem_and, startMask_getElem ⟨k, hk⟩]

/-! ### Ownership (R161) -/

theorem ownedByOther_eq_false {s : State} {who : Initiator} (h : NotOwnedByOther s who) :
    s.ownedByOther who = false := by
  unfold State.ownedByOther
  split
  · rename_i o ho
    simp [h o (by rw [ho]; rfl)]
  · rfl

theorem ownedByOther_eq_true {s : State} {who : Initiator} {o : Ownership} (h : s.ownership = some o)
    (hne : o.manager ≠ who) : s.ownedByOther who = true := by
  simp [State.ownedByOther, h, hne]

/-- The submission of a manager marks the ownership, which is its own (R162). -/
theorem markSubmitted_of_notOwnedByOther {s : State} {who : Initiator} (h : NotOwnedByOther s who) :
    markSubmitted who s.ownership = s.ownership.map fun o => { o with submitted := true } := by
  unfold markSubmitted
  split
  · rename_i o ho
    rw [if_pos (h o (by rw [ho]; rfl)), ho]
    rfl
  · rename_i ho
    rw [ho]
    rfl

theorem submitted_eq_afterSubmission (d : DirState) : d.submitted = afterSubmission d := by
  cases d <;> rfl

end Sys2Proof.Machine
end

