-- ==== Sys2Proof/Laws/Claims.lean ====
section
/-! SUPPORT. The claim table: what each of its operations leaves in it, and that each keeps its canonical form
(`Claims.Sorted`, log entry 8). -/

namespace Sys2Proof.Machine

/-! ### Reading one record -/

@[simp] theorem Claims.get_nil (n : ClaimNo) : Claims.get [] n = none := rfl

theorem Claims.get_cons (k : ClaimNo) (d : Claim) (rest : Claims) (n : ClaimNo) :
    Claims.get ((k, d) :: rest) n = if n = k then some d else Claims.get rest n := by
  unfold Claims.get
  by_cases h : n = k
  · simp [h]
  · have hb : (n == k) = false := by simpa using h
    simp [List.lookup_cons, h, hb]

/-- A record that is read is listed. -/
theorem Claims.mem_of_get {claims : Claims} {n : ClaimNo} {c : Claim} (h : claims.get n = some c) :
    (n, c) ∈ claims := by
  induction claims with
  | nil => simp at h
  | cons e rest ih =>
    obtain ⟨k, d⟩ := e
    rw [Claims.get_cons] at h
    split at h
    · rename_i hk
      cases h
      simp [hk]
    · exact List.mem_cons_of_mem _ (ih h)

/-- In a table in canonical form a record is read exactly when it is listed. -/
theorem Claims.get_eq_some_iff {claims : Claims} (hs : claims.Sorted) {n : ClaimNo} {c : Claim} :
    claims.get n = some c ↔ (n, c) ∈ claims := by
  refine ⟨Claims.mem_of_get, fun h => ?_⟩
  induction claims with
  | nil => simp at h
  | cons e rest ih =>
    obtain ⟨k, d⟩ := e
    rw [Claims.get_cons]
    rw [Claims.Sorted, List.pairwise_cons] at hs
    rcases List.mem_cons.mp h with h | h
    · cases h
      simp
    · have hlt : k < n := hs.1 _ h
      simp [hlt.ne', ih hs.2 h]

/-- A record that is not read is not listed, in any table. -/
theorem Claims.get_eq_none_iff {claims : Claims} {n : ClaimNo} :
    claims.get n = none ↔ ∀ c, (n, c) ∉ claims := by
  induction claims with
  | nil => simp
  | cons e rest ih =>
    obtain ⟨k, d⟩ := e
    rw [Claims.get_cons]
    by_cases h : n = k
    · simp only [h, if_true]
      constructor
      · simp
      · intro hc
        exact absurd (by simp) (hc d)
    · simp [h, ih]

/-! ### Setting one record -/

theorem Claims.get_put (claims : Claims) (n m : ClaimNo) (c : Claim) :
    (claims.put n c).get m = if m = n then some c else claims.get m := by
  induction claims with
  | nil => simp [Claims.put, Claims.get_cons]
  | cons e rest ih =>
    obtain ⟨k, d⟩ := e
    simp only [Claims.put]
    split
    · rw [Claims.get_cons]
    · split
      · rename_i h
        subst h
        simp only [Claims.get_cons]
        split <;> rfl
      · rename_i h
        simp only [Claims.get_cons, ih]
        by_cases hm : m = k
        · simp [hm, Ne.symm h]
        · simp [hm]

@[simp] theorem Claims.get_put_self (claims : Claims) (n : ClaimNo) (c : Claim) :
    (claims.put n c).get n = some c := by
  simp [Claims.get_put]

theorem Claims.mem_put {claims : Claims} {n : ClaimNo} {c : Claim} {e : ClaimNo × Claim}
    (h : e ∈ claims.put n c) : e = (n, c) ∨ e ∈ claims := by
  induction claims with
  | nil => simpa [Claims.put] using h
  | cons f rest ih =>
    obtain ⟨k, d⟩ := f
    simp only [Claims.put] at h
    split at h
    · simpa using h
    · split at h
      · rcases List.mem_cons.mp h with h | h
        · exact .inl h
        · exact .inr (List.mem_cons_of_mem _ h)
      · rcases List.mem_cons.mp h with h | h
        · exact .inr (by simp [h])
        · exact (ih h).imp_right (List.mem_cons_of_mem _)

theorem Claims.sorted_put {claims : Claims} (hs : claims.Sorted) (n : ClaimNo) (c : Claim) :
    (claims.put n c).Sorted := by
  induction claims with
  | nil => simp [Claims.put, Claims.Sorted]
  | cons e rest ih =>
    obtain ⟨k, d⟩ := e
    rw [Claims.Sorted, List.pairwise_cons] at hs
    simp only [Claims.put]
    split
    · rename_i h
      refine List.pairwise_cons.mpr ⟨?_, List.pairwise_cons.mpr hs⟩
      intro x hx
      rcases List.mem_cons.mp hx with hx | hx
      · simpa [hx] using h
      · exact lt_trans h (hs.1 x hx)
    · rename_i hnk
      split
      · rename_i h
        subst h
        exact List.pairwise_cons.mpr hs
      · rename_i hne
        refine List.pairwise_cons.mpr ⟨?_, ih hs.2⟩
        intro x hx
        rcases Claims.mem_put hx with hx | hx
        · simpa [hx] using lt_of_le_of_ne (not_lt.mp hnk) (Ne.symm hne)
        · exact hs.1 x hx

/-- What is listed after a put, in a table in canonical form. -/
theorem Claims.mem_put_iff {claims : Claims} (hs : claims.Sorted) {n : ClaimNo} {c : Claim}
    {e : ClaimNo × Claim} : e ∈ claims.put n c ↔ e = (n, c) ∨ (e ∈ claims ∧ e.1 ≠ n) := by
  obtain ⟨m, d⟩ := e
  rw [← Claims.get_eq_some_iff (Claims.sorted_put hs n c), Claims.get_put,
    ← Claims.get_eq_some_iff hs]
  by_cases h : m = n
  · simp [h, eq_comm]
  · simp [h]

/-! ### Freeing one record -/

theorem Claims.mem_free {claims : Claims} {n : ClaimNo} {e : ClaimNo × Claim} :
    e ∈ claims.free n ↔ e ∈ claims ∧ e.1 ≠ n := by
  simp [Claims.free]

theorem Claims.sorted_free {claims : Claims} (hs : claims.Sorted) (n : ClaimNo) :
    (claims.free n).Sorted :=
  List.Pairwise.filter _ hs

theorem Claims.get_free (claims : Claims) (n m : ClaimNo) :
    (claims.free n).get m = if m = n then none else claims.get m := by
  induction claims with
  | nil => simp [Claims.free]
  | cons e rest ih =>
    obtain ⟨k, d⟩ := e
    unfold Claims.free at ih ⊢
    by_cases hk : k = n
    · subst hk
      rw [List.filter_cons_of_neg (by simp), ih, Claims.get_cons]
      split <;> rfl
    · rw [List.filter_cons_of_pos (by simp [hk]), Claims.get_cons, ih, Claims.get_cons]
      by_cases hm : m = k
      · simp [hm, hk]
      · simp [hm]

/-! ### Changing one record -/

theorem Claims.mem_update {claims : Claims} {n : ClaimNo} {f : Claim → Claim} {e : ClaimNo × Claim} :
    e ∈ claims.update n f ↔
      ∃ d, (e.1, d) ∈ claims ∧ e.2 = if e.1 = n then f d else d := by
  obtain ⟨m, c⟩ := e
  simp only [Claims.update, List.mem_map, Prod.exists]
  constructor
  · rintro ⟨k, d, hmem, h⟩
    split at h
    · rename_i hk
      cases h
      exact ⟨d, hmem, by simp [hk]⟩
    · rename_i hk
      cases h
      exact ⟨_, hmem, by simp [hk]⟩
  · rintro ⟨d, hmem, h⟩
    refine ⟨m, d, hmem, ?_⟩
    split <;> simp_all

theorem Claims.sorted_update {claims : Claims} (hs : claims.Sorted) (n : ClaimNo) (f : Claim → Claim) :
    (claims.update n f).Sorted := by
  unfold Claims.update
  refine List.pairwise_map.mpr (hs.imp ?_)
  intro a b h
  split <;> split <;> exact h

theorem Claims.get_update (claims : Claims) (n m : ClaimNo) (f : Claim → Claim) :
    (claims.update n f).get m = if m = n then (claims.get m).map f else claims.get m := by
  induction claims with
  | nil => simp [Claims.update]
  | cons e rest ih =>
    obtain ⟨k, d⟩ := e
    unfold Claims.update at ih ⊢
    rw [List.map_cons]
    by_cases hk : k = n
    · subst hk
      simp only [if_true, Claims.get_cons, ih]
      by_cases hm : m = k <;> simp [hm]
    · simp only [hk, if_false, Claims.get_cons, ih]
      by_cases hm : m = k
      · simp [hm, hk]
      · simp [hm]

/-! ### Changing every record -/

theorem Claims.mem_alter {claims : Claims} {f : ClaimNo → Claim → Option Claim} {e : ClaimNo × Claim} :
    e ∈ claims.alter f ↔ ∃ d, (e.1, d) ∈ claims ∧ f e.1 d = some e.2 := by
  obtain ⟨m, c⟩ := e
  simp only [Claims.alter, List.mem_filterMap, Option.map_eq_some_iff, Prod.exists, Prod.mk.injEq]
  constructor
  · rintro ⟨k, d, hmem, c', h, rfl, rfl⟩
    exact ⟨d, hmem, h⟩
  · rintro ⟨d, hmem, h⟩
    exact ⟨m, d, hmem, c, h, rfl, rfl⟩

theorem Claims.sorted_alter {claims : Claims} (hs : claims.Sorted)
    (f : ClaimNo → Claim → Option Claim) : (claims.alter f).Sorted := by
  unfold Claims.alter
  refine List.pairwise_filterMap.mpr (hs.imp ?_)
  intro a b h x hx y hy
  simp only [Option.map_eq_some_iff] at hx hy
  obtain ⟨_, _, rfl⟩ := hx
  obtain ⟨_, _, rfl⟩ := hy
  exact h

theorem Claims.get_alter {claims : Claims} (hs : claims.Sorted)
    (f : ClaimNo → Claim → Option Claim) (n : ClaimNo) :
    (claims.alter f).get n = (claims.get n).bind (f n) := by
  cases h : claims.get n with
  | none =>
    rw [Option.bind_none, Claims.get_eq_none_iff]
    intro c hc
    obtain ⟨d, hd, -⟩ := Claims.mem_alter.mp hc
    exact Claims.get_eq_none_iff.mp h d hd
  | some d =>
    have hd := Claims.mem_of_get h
    rw [Option.bind_some]
    cases hf : f n d with
    | some c => exact (Claims.get_eq_some_iff (Claims.sorted_alter hs f)).mpr (Claims.mem_alter.mpr ⟨d, hd, hf⟩)
    | none =>
      rw [Claims.get_eq_none_iff]
      intro c hc
      obtain ⟨d', hd', hf'⟩ := Claims.mem_alter.mp hc
      have : d' = d := by
        have h1 := (Claims.get_eq_some_iff hs).mpr hd'
        simp only at h1
        rw [h] at h1
        exact (Option.some.inj h1).symm
      simp [this, hf] at hf'

/-! ### The lowest FREE record (R6) -/

/-- The first number below a bound that satisfies a test. -/
theorem find?_finRange_eq_some {bound : Nat} {p : Fin bound → Bool} {n : Fin bound} :
    (List.finRange bound).find? p = some n ↔ p n = true ∧ ∀ m, m < n → p m = false := by
  rw [List.find?_eq_some_iff_getElem]
  constructor
  · rintro ⟨h, i, hi, rfl, hlt⟩
    refine ⟨h, fun m hm => ?_⟩
    have hm' : m.val < i := by simpa [Fin.lt_def] using hm
    simpa using hlt m.val hm'
  · rintro ⟨h, hlt⟩
    refine ⟨h, n.val, by simp, by simp, fun j hj => ?_⟩
    simpa using hlt ⟨j, lt_trans hj n.isLt⟩ hj

theorem Claims.lowestFree_eq_some {claims : Claims} {n : ClaimNo} :
    claims.lowestFree = some n ↔ claims.get n = none ∧ ∀ m, m < n → claims.get m ≠ none := by
  unfold Claims.lowestFree
  rw [find?_finRange_eq_some]
  simp only [Option.isNone_iff_eq_none, Option.isNone_eq_false_iff, Option.isSome_iff_ne_none]

theorem Claims.lowestFree_eq_none {claims : Claims} :
    claims.lowestFree = none ↔ ∀ n, claims.get n ≠ none := by
  unfold Claims.lowestFree
  simp [List.find?_eq_none]

end Sys2Proof.Machine
end

