-- ==== Sys2Proof/Laws/Conflicts.lean ====
section
/-! SUPPORT. The model's decisions in the words of the manual: legality, overlap, conflict, blocking, the pairs of
the wait-for relation, and the records that cover a granule. -/

namespace Sys2Proof.Machine

/-! ### Spans -/

theorem Span.overlaps_iff {a b : Span} : a.overlaps b = true ↔ a.Meets b := by
  rw [Span.overlaps, Bool.and_eq_true, decide_eq_true_eq, decide_eq_true_eq]
  exact Iff.rfl

theorem Span.legal_iff {a : Span} {guardLimit : Nat} : a.legal guardLimit = true ↔ a.Legal guardLimit := by
  simp only [Span.legal, Bool.and_eq_true, decide_eq_true_eq, and_assoc]
  exact Iff.rfl

theorem Span.legal_eq_false_iff {a : Span} {guardLimit : Nat} :
    a.legal guardLimit = false ↔ ¬a.Legal guardLimit := by
  rw [← Span.legal_iff, Bool.not_eq_true]

/-! ### Conflicts -/

theorem modesClash_iff {a b : Mode} : modesClash a b = true ↔ a = .exclusive ∨ b = .exclusive := by
  simp [modesClash]

theorem recordConflicts_iff {mode : Mode} {span : Span} {c : Claim} :
    recordConflicts mode span c = true ↔ ConflictsRecord mode span c := by
  simp [recordConflicts, Span.overlaps_iff, modesClash_iff, or_assoc]

theorem waiterConflicts_iff {mode : Mode} {span : Span} {v : Waiter} :
    waiterConflicts mode span v = true ↔ ConflictsWaiter mode span v := by
  simp [waiterConflicts, Span.overlaps_iff, modesClash_iff]

theorem contended_iff {claims : Claims} {earlier : List Waiter} {w : Waiter} :
    contended claims earlier w = true ↔ Contends claims earlier w.ownRecord w.mode w.span := by
  simp only [contended, tableConflicts, Bool.or_eq_true, List.any_eq_true, Bool.and_eq_true,
    Bool.not_eq_true', decide_eq_false_iff_not, recordConflicts_iff, waiterConflicts_iff]

theorem contended_eq_false_iff {claims : Claims} {earlier : List Waiter} {w : Waiter} :
    contended claims earlier w = false ↔ ¬Contends claims earlier w.ownRecord w.mode w.span := by
  rw [← contended_iff, Bool.not_eq_true]

/-- A waiter is blocked (R50): contended, or a CLAIM with no record FREE. -/
theorem blocked_iff {claims : Claims} {earlier : List Waiter} {w : Waiter} :
    blocked claims earlier w = true ↔
      Contends claims earlier w.ownRecord w.mode w.span ∨ (w.isClaim = true ∧ claims.Full) := by
  simp only [blocked, Bool.or_eq_true, Bool.and_eq_true, contended_iff, Option.isNone_iff_eq_none,
    Claims.lowestFree_eq_none]

theorem selfOverlaps_iff {tb : Tables} {i : Initiator} {span : Span} :
    selfOverlaps tb i span = true ↔ OverlapsOwn tb i span := by
  simp only [selfOverlaps, Bool.or_eq_true, List.any_eq_true, Bool.and_eq_true, Bool.not_eq_true',
    decide_eq_true_eq, decide_eq_false_iff_not, Span.overlaps_iff, and_assoc]

theorem selfOverlaps_eq_false_iff {tb : Tables} {i : Initiator} {span : Span} :
    selfOverlaps tb i span = false ↔ ¬OverlapsOwn tb i span := by
  rw [← selfOverlaps_iff, Bool.not_eq_true]

/-- The initiator has a live record or a waiter (R54). -/
theorem hasStake_iff {tb : Tables} {i : Initiator} : hasStake tb i = true ↔ HasStake tb i := by
  simp [hasStake, HasStake]

/-! ### The wait-for relation (R61) -/

theorem mem_pairsOf {claims : Claims} {earlier : List Waiter} {w : Waiter} {a b : Initiator} :
    (a, b) ∈ pairsOf claims earlier w ↔ a ≠ b ∧ w.initiator = a ∧
      ((∃ e ∈ claims, e.2.holder = b ∧ e.2.live = true ∧ w.ownRecord ≠ some e.1
          ∧ ConflictsRecord w.mode w.span e.2)
        ∨ ∃ v ∈ earlier, v.initiator = b ∧ ConflictsWaiter w.mode w.span v) := by
  simp only [pairsOf, List.mem_append, List.mem_map, List.mem_filter, Bool.and_eq_true, Bool.not_eq_true',
    decide_eq_false_iff_not, recordConflicts_iff, waiterConflicts_iff, Prod.mk.injEq]
  constructor
  · rintro (⟨e, ⟨he, ⟨⟨hl, hh⟩, ho⟩, hc⟩, rfl, rfl⟩ | ⟨v, ⟨hv, hh, hc⟩, rfl, rfl⟩)
    · exact ⟨Ne.symm hh, rfl, Or.inl ⟨e, he, rfl, hl, ho, hc⟩⟩
    · exact ⟨Ne.symm hh, rfl, Or.inr ⟨v, hv, rfl, hc⟩⟩
  · rintro ⟨hne, rfl, (⟨e, he, rfl, hl, ho, hc⟩ | ⟨v, hv, rfl, hc⟩)⟩
    · exact Or.inl ⟨e, ⟨he, ⟨⟨hl, Ne.symm hne⟩, ho⟩, hc⟩, rfl, rfl⟩
    · exact Or.inr ⟨v, ⟨hv, Ne.symm hne, hc⟩, rfl, rfl⟩

theorem mem_waitPairsFrom {claims : Claims} {p : Initiator × Initiator} (queue : List Waiter) :
    ∀ earlier, p ∈ waitPairsFrom claims earlier queue ↔
      ∃ before w after, queue = before ++ w :: after ∧ p ∈ pairsOf claims (earlier ++ before) w := by
  induction queue with
  | nil => simp [waitPairsFrom]
  | cons v rest ih =>
    intro earlier
    simp only [waitPairsFrom, List.mem_append, ih]
    constructor
    · rintro (h | ⟨before, w, after, rfl, h⟩)
      · exact ⟨[], v, rest, rfl, by simpa using h⟩
      · exact ⟨v :: before, w, after, rfl, by simpa using h⟩
    · rintro ⟨before, w, after, hq, h⟩
      cases before with
      | nil =>
        simp only [List.nil_append, List.cons.injEq] at hq
        obtain ⟨rfl, rfl⟩ := hq
        exact Or.inl (by simpa using h)
      | cons u before =>
        simp only [List.cons_append, List.cons.injEq] at hq
        obtain ⟨rfl, rfl⟩ := hq
        exact Or.inr ⟨before, w, after, rfl, by simpa using h⟩

/-- The pairs of the model are the wait-for relation of R61. -/
theorem mem_waitPairs {claims : Claims} {queue : List Waiter} {a b : Initiator} :
    (a, b) ∈ waitPairs claims queue ↔ WaitsFor claims queue a b := by
  unfold waitPairs WaitsFor
  rw [mem_waitPairsFrom]
  simp only [List.nil_append, mem_pairsOf]
  constructor
  · rintro ⟨before, w, after, hq, hne, hw, h⟩
    exact ⟨hne, before, w, after, hq, hw, h⟩
  · rintro ⟨hne, before, w, after, hq, hw, h⟩
    exact ⟨before, w, after, hq, hne, hw, h⟩

/-! ### Covering records (R3, R120) -/

theorem Claim.covers_iff {c : Claim} {granule : Nat} :
    c.covers granule = true ↔ c.span.Meets ⟨granule, 1⟩ := by
  simp [Claim.covers, Span.holds, Span.overlaps_iff]

theorem coveredBy_eq_none {claims : Claims} {granule : Nat} {p : Claim → Bool} :
    coveredBy claims granule p = none ↔
      ∀ e ∈ claims, e.2.span.Meets ⟨granule, 1⟩ → p e.2 = false := by
  simp only [coveredBy, Option.map_eq_none_iff, List.find?_eq_none, Bool.and_eq_true, not_and,
    Bool.not_eq_true, Claim.covers_iff]

theorem coveredBy_eq_some {claims : Claims} {granule : Nat} {p : Claim → Bool} {n : ClaimNo}
    (h : coveredBy claims granule p = some n) :
    ∃ e ∈ claims, e.2.span.Meets ⟨granule, 1⟩ ∧ p e.2 = true ∧ e.1 = n := by
  simp only [coveredBy, Option.map_eq_some_iff] at h
  obtain ⟨e, he, rfl⟩ := h
  have hp := List.find?_some he
  simp only [Bool.and_eq_true, Claim.covers_iff] at hp
  exact ⟨e, List.mem_of_find?_eq_some he, hp.1, hp.2, rfl⟩

end Sys2Proof.Machine
end

