-- ==== Sys2Proof/Laws/Queue.lean ====
section
/-! SUPPORT. Notices, the judgement of a waiter and the grant pass: what each can do, said once.  The induction
over the walk of a pass is packaged in `grantWalk_induction` and `grantPass_induction`. -/

namespace Sys2Proof.Machine

/-! ### Notices (R68) -/

theorem appendNotice_get (inits : Vector InitRecord 8) (i j : Initiator) (n : Notice) :
    (appendNotice inits i n)[j] =
      if j = i then { inits[i] with notices := inits[i].notices ++ [n] } else inits[j] := by
  simp only [appendNotice, Fin.getElem_fin, Vector.getElem_set, Fin.val_inj]
  by_cases h : i = j
  · simp [h]
  · simp [h, Ne.symm h]

@[simp] theorem appendNotice_state (inits : Vector InitRecord 8) (i j : Initiator) (n : Notice) :
    (appendNotice inits i n)[j.val].state = inits[j.val].state := by
  rw [← Fin.getElem_fin, appendNotice_get]
  split
  · rename_i h
    subst h
    rfl
  · rfl

@[simp] theorem appendNotice_generation (inits : Vector InitRecord 8) (i j : Initiator) (n : Notice) :
    (appendNotice inits i n)[j.val].generation = inits[j.val].generation := by
  rw [← Fin.getElem_fin, appendNotice_get]
  split
  · rename_i h
    subst h
    rfl
  · rfl

theorem appendNotice_notices (inits : Vector InitRecord 8) (i j : Initiator) (n : Notice) :
    (appendNotice inits i n)[j].notices =
      if j = i then inits[j].notices ++ [n] else inits[j].notices := by
  rw [appendNotice_get]
  split
  · rename_i h
    subst h
    rfl
  · rfl

/-! ### The judgement of a waiter (R50, R51, R52) -/

theorem judgeWaiter_eq_some {claims : Claims} {earlier : List Waiter} {w : Waiter} {n : ClaimNo}
    {c : Claim} : judgeWaiter claims earlier w = some (n, c) ↔
      contended claims earlier w = false ∧ grantedRecord claims w = some (n, c) := by
  unfold judgeWaiter
  cases contended claims earlier w <;> simp

theorem judgeWaiter_eq_none {claims : Claims} {earlier : List Waiter} {w : Waiter} :
    judgeWaiter claims earlier w = none ↔
      contended claims earlier w = true ∨ grantedRecord claims w = none := by
  unfold judgeWaiter
  cases contended claims earlier w <;> simp

/-- What the grant of a waiter makes: a CLAIM a HELD record where the lowest FREE one stood, an UPGRADE its
own record EXCLUSIVE. -/
theorem grantedRecord_eq_some {claims : Claims} {w : Waiter} {n : ClaimNo} {c : Claim} :
    grantedRecord claims w = some (n, c) ↔
      (∃ mode, w.kind = .claim mode ∧ claims.lowestFree = some n
        ∧ c = ⟨.held, w.initiator, mode, w.span, w.tag, none⟩)
      ∨ (w.kind = .upgrade n
        ∧ ∃ d, claims.get n = some d ∧ c = { d with mode := .exclusive, upgradeTicket := none }) := by
  unfold grantedRecord
  cases hk : w.kind with
  | claim mode => simp [eq_comm]
  | upgrade m =>
    simp only [Option.map_eq_some_iff, Prod.mk.injEq, reduceCtorEq, false_and, exists_false, false_or,
      WaiterKind.upgrade.injEq]
    constructor
    · rintro ⟨d, hd, rfl, rfl⟩
      exact ⟨rfl, d, hd, rfl⟩
    · rintro ⟨rfl, d, hd, rfl⟩
      exact ⟨d, hd, rfl, rfl⟩

/-! ### The grant of one waiter (R52) -/

@[simp] theorem grantWaiter_claims (tb : Tables) (w : Waiter) (n : ClaimNo) (c : Claim) :
    (grantWaiter tb w n c).claims = tb.claims.put n c := rfl
@[simp] theorem grantWaiter_queue (tb : Tables) (w : Waiter) (n : ClaimNo) (c : Claim) :
    (grantWaiter tb w n c).queue = tb.queue := rfl
@[simp] theorem grantWaiter_inits (tb : Tables) (w : Waiter) (n : ClaimNo) (c : Claim) :
    (grantWaiter tb w n c).inits = appendNotice tb.inits w.initiator ⟨w.ticket, .granted n, c.tag⟩ := rfl
@[simp] theorem grantWaiter_ticketCounter (tb : Tables) (w : Waiter) (n : ClaimNo) (c : Claim) :
    (grantWaiter tb w n c).ticketCounter = tb.ticketCounter := rfl
@[simp] theorem grantWaiter_fenceQueue (tb : Tables) (w : Waiter) (n : ClaimNo) (c : Claim) :
    (grantWaiter tb w n c).fenceQueue = tb.fenceQueue := rfl

/-! ### The walk (R51) -/

/-- A property of the tables and of the waiters not yet judged that holds when a walk begins and is kept by
each judgement holds at its end. -/
theorem grantWalk_induction {P : Tables → List Waiter → Prop}
    (hblocked : ∀ tb w rest, P tb (w :: rest) → judgeWaiter tb.claims tb.queue w = none →
      P { tb with queue := tb.queue ++ [w] } rest)
    (hgranted : ∀ tb w rest n c, P tb (w :: rest) → judgeWaiter tb.claims tb.queue w = some (n, c) →
      P (grantWaiter tb w n c) rest)
    (tb : Tables) (l : List Waiter) (h : P tb l) : P (grantWalk tb l) [] := by
  induction l generalizing tb with
  | nil => exact h
  | cons w rest ih =>
    rw [grantWalk]
    split
    · exact ih _ (hblocked _ _ _ h ‹_›)
    · exact ih _ (hgranted _ _ _ _ _ h ‹_›)

/-- The same over a whole pass: it begins with no waiter judged. -/
theorem grantPass_induction {P : Tables → List Waiter → Prop}
    (hblocked : ∀ tb w rest, P tb (w :: rest) → judgeWaiter tb.claims tb.queue w = none →
      P { tb with queue := tb.queue ++ [w] } rest)
    (hgranted : ∀ tb w rest n c, P tb (w :: rest) → judgeWaiter tb.claims tb.queue w = some (n, c) →
      P (grantWaiter tb w n c) rest)
    (tb : Tables) (h : P { tb with queue := [] } tb.queue) : P (grantPass tb) [] :=
  grantWalk_induction hblocked hgranted _ _ h

/-- A property of the tables alone, kept when one waiter is granted against the waiters before it and leaves the
queue, is kept by a pass. -/
theorem grantPass_keeps {P : Tables → Prop}
    (hmid : ∀ tb before w after n c, tb.queue = before ++ w :: after → P tb →
      judgeWaiter tb.claims before w = some (n, c) →
      P { grantWaiter tb w n c with queue := before ++ after })
    (tb : Tables) (h : P tb) : P (grantPass tb) := by
  have key : (fun (tb' : Tables) (l : List Waiter) => P { tb' with queue := tb'.queue ++ l })
      (grantPass tb) [] := by
    refine grantPass_induction
      (P := fun (tb' : Tables) (l : List Waiter) => P { tb' with queue := tb'.queue ++ l }) ?_ ?_ tb ?_
    · intro tb' w rest hp _
      simpa using hp
    · intro tb' w rest n c hp hj
      exact hmid { tb' with queue := tb'.queue ++ w :: rest } tb'.queue w rest n c rfl hp hj
    · exact h
  simpa using key

@[simp] theorem grantPass_ticketCounter (tb : Tables) : (grantPass tb).ticketCounter = tb.ticketCounter :=
  grantPass_induction (P := fun tb' _ => tb'.ticketCounter = tb.ticketCounter)
    (fun _ _ _ h _ => h) (fun _ _ _ _ _ h _ => h) tb rfl

@[simp] theorem grantPass_fenceQueue (tb : Tables) : (grantPass tb).fenceQueue = tb.fenceQueue :=
  grantPass_induction (P := fun tb' _ => tb'.fenceQueue = tb.fenceQueue)
    (fun _ _ _ h _ => h) (fun _ _ _ _ _ h _ => h) tb rfl

@[simp] theorem grantPass_state (tb : Tables) (i : Initiator) :
    (grantPass tb).inits[i.val].state = tb.inits[i.val].state :=
  grantPass_induction (P := fun tb' _ => tb'.inits[i.val].state = tb.inits[i.val].state)
    (fun _ _ _ h _ => h) (fun _ _ _ _ _ h _ => by simpa using h) tb rfl

@[simp] theorem grantPass_generation (tb : Tables) (i : Initiator) :
    (grantPass tb).inits[i.val].generation = tb.inits[i.val].generation :=
  grantPass_induction (P := fun tb' _ => tb'.inits[i.val].generation = tb.inits[i.val].generation)
    (fun _ _ _ h _ => h) (fun _ _ _ _ _ h _ => by simpa using h) tb rfl

/-- The waiters that stay are waiters of the queue, in their order (R48). -/
theorem grantPass_queue_sublist (tb : Tables) : (grantPass tb).queue.Sublist tb.queue := by
  have := grantPass_induction (P := fun tb' l => (tb'.queue ++ l).Sublist tb.queue)
    (fun _ _ _ h _ => by simpa using h)
    (fun tb' w rest _ _ h _ =>
      ((List.sublist_cons_self w rest).append_left tb'.queue).trans h) tb (by simp)
  simpa using this

/-- A pass takes no notice away: it appends to each list. -/
theorem grantPass_notices_prefix (tb : Tables) (i : Initiator) :
    tb.inits[i].notices <+: (grantPass tb).inits[i].notices :=
  grantPass_induction (P := fun tb' _ => tb.inits[i].notices <+: tb'.inits[i].notices)
    (fun _ _ _ h _ => h)
    (fun _ _ _ _ _ h _ => by
      rw [grantWaiter_inits, appendNotice_notices]
      split
      · exact h.trans (List.prefix_append _ _)
      · exact h) tb (List.prefix_refl _)

/-- A pass keeps the table's canonical form. -/
theorem grantPass_sorted {tb : Tables} (h : tb.claims.Sorted) : (grantPass tb).claims.Sorted :=
  grantPass_induction (P := fun tb' _ => tb'.claims.Sorted)
    (fun _ _ _ h _ => h) (fun _ _ _ _ _ h _ => Claims.sorted_put h _ _) tb h

/-- A pass over an empty queue changes nothing (R51). -/
theorem grantPass_of_queue_nil {tb : Tables} (h : tb.queue = []) : grantPass tb = tb := by
  cases tb
  simp_all [grantPass, grantWalk]

theorem grantPassIf_cases {P : Tables → Prop} {b : Bool} {tb : Tables} (h : P tb)
    (hp : P (grantPass tb)) : P (grantPassIf b tb) := by
  cases b
  · exact h
  · exact hp

end Sys2Proof.Machine
end

