-- ==== Sys2Proof/Laws/Judges.lean ====
section
/-! SUPPORT. What each request can do to the tables, said once: for every judge, the tables it leaves, with the
conditions under which it leaves them.  A proof about every step cites these in place of the judges. -/

namespace Sys2Proof.Machine

/-! ### Operands -/

theorem claimOperand_eq_some {w : RequestWords} {n : ClaimNo} : claimOperand w = some n ↔ Names w n := by
  unfold claimOperand
  by_cases h : w.w2.toNat < 256
  · rw [dif_pos h, Option.some.injEq, Fin.ext_iff]
  · rw [dif_neg h]
    exact ⟨fun h' => (nomatch h'), fun h' => absurd (h' ▸ n.isLt) h⟩

theorem claimOperand_eq_none {w : RequestWords} : claimOperand w = none ↔ 255 < w.w2.toNat := by
  unfold claimOperand
  by_cases h : w.w2.toNat < 256
  · rw [dif_pos h]
    exact ⟨fun h' => (nomatch h'), fun h' => absurd h' (by omega)⟩
  · rw [dif_neg h]
    exact ⟨fun _ => by omega, fun _ => rfl⟩

theorem initiatorOperand_eq_some {w : RequestWords} {i : Initiator} :
    initiatorOperand w = some i ↔ w.w2.toNat = i.val := by
  unfold initiatorOperand
  by_cases h : w.w2.toNat < 8
  · rw [dif_pos h, Option.some.injEq, Fin.ext_iff]
  · rw [dif_neg h]
    exact ⟨fun h' => (nomatch h'), fun h' => absurd (h' ▸ i.isLt) h⟩

theorem initiatorOperand_eq_none {w : RequestWords} : initiatorOperand w = none ↔ 7 < w.w2.toNat := by
  unfold initiatorOperand
  by_cases h : w.w2.toNat < 8
  · rw [dif_pos h]
    exact ⟨fun h' => (nomatch h'), fun h' => absurd h' (by omega)⟩
  · rw [dif_neg h]
    exact ⟨fun _ => by omega, fun _ => rfl⟩

/-! ### Queuing -/

/-- A placement that nothing refuses: room in the queue, a ticket left, and no cycle closed (R55). -/
theorem placementRefusal_eq_none {tb : Tables} {v : Waiter} : placementRefusal tb v = none ↔
    tb.queue.length < queueCapacity ∧ openTicketCount tb v.initiator < ticketCapacity
      ∧ hasCycle (waitPairs tb.claims (placeWaiter tb.queue v)) = false := by
  unfold placementRefusal
  split
  · rename_i h; simp; omega
  · rename_i h
    split
    · rename_i h'; simp; omega
    · rename_i h'
      split
      · rename_i hc; simp [hc]
      · rename_i hc; simp at hc; simp [hc]; omega

/-- A request offered to the queue leaves the tables, or stands in the queue under its ticket (R55). -/
theorem offerWaiter_cases (tb : Tables) (v : Waiter) :
    (offerWaiter tb v).1 = tb
      ∨ (placementRefusal tb v = none ∧ (offerWaiter tb v).1 = queueWaiter tb v) := by
  unfold offerWaiter
  split
  · exact Or.inl rfl
  · rename_i h; exact Or.inr ⟨h, rfl⟩

/-! ### CLAIM and UPGRADE -/

theorem claimWaiter_initiator (tb : Tables) (i : Initiator) (mode : Mode) (w : RequestWords) :
    (claimWaiter tb i mode w).initiator = i := rfl

/-- A wait limit that queues is not 0, so no waiter starts with a wait remaining of 0 (R56). -/
theorem startRemaining_ne_zero {limit : Nat} (h : limit ≠ 0) : startRemaining limit ≠ some 0 := by
  unfold startRemaining
  split
  · exact nofun
  · simpa using h

/-- What a CLAIM past the gate can do to the tables (R27 to R34): nothing, the grant of a record, or a waiter. -/
theorem judgeClaim_cases (cfg : ConfigRegs) (i : Initiator) (w : RequestWords) (tb : Tables) :
    (judgeClaim cfg i w tb).1 = tb
      ∨ ∃ mode, modeOperand w = some mode ∧ (claimSpan w).Legal cfg.guardLimit
        ∧ ¬OverlapsOwn tb i (claimSpan w) ∧ claimCount tb i < cfg.claimLimit
        ∧ ((∃ n, contended tb.claims tb.queue (claimWaiter tb i mode w) = false
              ∧ tb.claims.lowestFree = some n
              ∧ (judgeClaim cfg i w tb).1 = { tb with
                  claims := tb.claims.put n ⟨.held, i, mode, claimSpan w, tagOperand w, none⟩ })
          ∨ (blocked tb.claims tb.queue (claimWaiter tb i mode w) = true ∧ waitLimit w ≠ 0
              ∧ placementRefusal tb (claimWaiter tb i mode w) = none
              ∧ (judgeClaim cfg i w tb).1 = queueWaiter tb (claimWaiter tb i mode w))) := by
  unfold judgeClaim
  split
  · exact Or.inl rfl
  · rename_i mode hm
    unfold judgeClaimMode
    split
    · exact Or.inl rfl
    · rename_i hl
      split
      · exact Or.inl rfl
      · rename_i ho
        split
        · exact Or.inl rfl
        · rename_i hlim
          split
          · rename_i n c hj
            rw [judgeWaiter_eq_some, grantedRecord_eq_some] at hj
            obtain ⟨hc, ⟨m, hk, hf, rfl⟩ | ⟨hk, _⟩⟩ := hj
            · cases hk
              exact Or.inr ⟨mode, hm, not_not.mp fun hn => hl (Span.legal_eq_false_iff.mpr hn),
                by simpa [selfOverlaps_iff] using ho, by omega, Or.inl ⟨n, hc, hf, rfl⟩⟩
            · cases hk
          · rename_i hj
            unfold claimNotGranted
            split
            · exact Or.inl rfl
            · rename_i hw
              rcases offerWaiter_cases tb (claimWaiter tb i mode w) with h | ⟨hp, h⟩
              · exact Or.inl h
              · refine Or.inr ⟨mode, hm, not_not.mp fun hn => hl (Span.legal_eq_false_iff.mpr hn),
                  by simpa [selfOverlaps_iff] using ho, by omega, Or.inr ⟨?_, hw, hp, h⟩⟩
                rw [judgeWaiter_eq_none] at hj
                rcases hj with hj | hj
                · simp [blocked, hj]
                · have : tb.claims.lowestFree = none := by simpa [grantedRecord, claimWaiter] using hj
                  simp [blocked, this, claimWaiter, Waiter.isClaim]

/-- What an UPGRADE past the gate can do to the tables (R35 to R37): nothing, the grant on the requester's HELD
SHARED record that carries no upgrade ticket, or a waiter on it. -/
theorem judgeUpgrade_cases (cfg : ConfigRegs) (i : Initiator) (w : RequestWords) (tb : Tables) :
    (judgeUpgrade cfg i w tb).1 = tb
      ∨ ∃ n c, NamesHeld tb.claims i w n c .shared ∧ c.upgradeTicket = none
        ∧ ((contended tb.claims (aheadOf tb.queue (upgradeWaiter tb i n c w)) (upgradeWaiter tb i n c w) = false
              ∧ hasCycle (waitPairs (tb.claims.put n { c with mode := .exclusive, upgradeTicket := none })
                  tb.queue) = false
              ∧ (judgeUpgrade cfg i w tb).1 = { tb with
                  claims := tb.claims.put n { c with mode := .exclusive, upgradeTicket := none } })
          ∨ (contended tb.claims (aheadOf tb.queue (upgradeWaiter tb i n c w)) (upgradeWaiter tb i n c w) = true
              ∧ waitLimit w ≠ 0 ∧ placementRefusal tb (upgradeWaiter tb i n c w) = none
              ∧ (judgeUpgrade cfg i w tb).1 = queueWaiter tb (upgradeWaiter tb i n c w))) := by
  unfold judgeUpgrade
  split
  · exact Or.inl rfl
  · rename_i n hn
    split
    · exact Or.inl rfl
    · rename_i c hg
      split
      · exact Or.inl rfl
      · rename_i hh
        split
        · exact Or.inl rfl
        · exact Or.inl rfl
        · exact Or.inl rfl
        · exact Or.inl rfl
        · rename_i hp hmode
          split
          · exact Or.inl rfl
          · rename_i ht
            have hheld : NamesHeld tb.claims i w n c .shared :=
              ⟨claimOperand_eq_some.mp hn, hg, not_not.mp hh, hp, hmode⟩
            unfold judgeUpgradeStep5
            dsimp only
            split
            · rename_i hc
              split
              · exact Or.inl rfl
              · rename_i hcy
                exact Or.inr ⟨n, c, hheld, by simpa using ht,
                  Or.inl ⟨hc, by simpa using hcy, rfl⟩⟩
            · rename_i hc
              split
              · exact Or.inl rfl
              · rename_i hw
                rcases offerWaiter_cases tb (upgradeWaiter tb i n c w) with h | ⟨hpl, h⟩
                · exact Or.inl h
                · exact Or.inr ⟨n, c, hheld, by simpa using ht,
                    Or.inr ⟨by simpa using hc, hw, hpl, h⟩⟩

/-! ### DOWNGRADE and RELEASE -/

/-- What a DOWNGRADE past the gate can do to the tables (R38). -/
theorem judgeDowngrade_cases (cfg : ConfigRegs) (i : Initiator) (w : RequestWords) (tb : Tables) :
    (judgeDowngrade cfg i w tb).1 = tb
      ∨ ∃ n c, NamesHeld tb.claims i w n c .exclusive
        ∧ (judgeDowngrade cfg i w tb).1 = { tb with
            claims := tb.claims.put n { c with phase := .drainingDown .pending, mode := .shared }
            fenceQueue := appendFence tb.fenceQueue i } := by
  unfold judgeDowngrade
  split
  · exact Or.inl rfl
  · rename_i n hn
    split
    · exact Or.inl rfl
    · rename_i c hg
      split
      · exact Or.inl rfl
      · rename_i hh
        split
        · rename_i hp hmode
          exact Or.inr ⟨n, c, ⟨claimOperand_eq_some.mp hn, hg, not_not.mp hh, hp, hmode⟩, rfl⟩
        all_goals exact Or.inl rfl

/-- What a RELEASE past the gate can do to the tables (R39, R40). -/
theorem judgeRelease_cases (cfg : ConfigRegs) (i : Initiator) (w : RequestWords) (tb : Tables) :
    (judgeRelease cfg i w tb).1 = tb
      ∨ (∃ n c, NamesHeld tb.claims i w n c .shared
        ∧ (judgeRelease cfg i w tb).1 = releaseShared tb i n c)
      ∨ (∃ n c, NamesHeld tb.claims i w n c .exclusive
        ∧ (judgeRelease cfg i w tb).1 = { tb with
            claims := tb.claims.put n { c with phase := .drainingOut .pending }
            fenceQueue := appendFence tb.fenceQueue i })
      ∨ ∃ n c stage, NamesDraining tb.claims i w n c stage
        ∧ (judgeRelease cfg i w tb).1 = { tb with
            claims := tb.claims.put n { c with phase := .drainingOut stage } } := by
  unfold judgeRelease
  split
  · exact Or.inl rfl
  · rename_i n hn
    have hn := claimOperand_eq_some.mp hn
    split
    · exact Or.inl rfl
    · rename_i c hg
      split
      · exact Or.inl rfl
      · rename_i hh
        have hh := not_not.mp hh
        split
        · rename_i hp hmode
          exact Or.inr (Or.inl ⟨n, c, ⟨hn, hg, hh, hp, hmode⟩, rfl⟩)
        · rename_i hp hmode
          exact Or.inr (Or.inr (Or.inl ⟨n, c, ⟨hn, hg, hh, hp, hmode⟩, rfl⟩))
        · rename_i stage hp
          exact Or.inr (Or.inr (Or.inr ⟨n, c, stage, ⟨hn, hg, hh, hp⟩, rfl⟩))
        all_goals exact Or.inl rfl

/-! ### CANCEL and TAKE-NOTICE -/

theorem findWaiter_eq_some {queue : List Waiter} {i : Initiator} {t : Ticket} {v : Waiter}
    (h : findWaiter queue i t = some v) : t ≠ 0 ∧ v ∈ queue ∧ v.ticket = t ∧ v.initiator = i := by
  unfold findWaiter at h
  split at h
  · cases h
  · rename_i ht
    have hp := List.find?_some h
    simp only [Bool.and_eq_true, decide_eq_true_eq] at hp
    exact ⟨ht, List.mem_of_find?_eq_some h, hp.1, hp.2⟩

/-- What a CANCEL past the gate can do to the tables (R59). -/
theorem judgeCancel_cases (cfg : ConfigRegs) (i : Initiator) (w : RequestWords) (tb : Tables) :
    (judgeCancel cfg i w tb).1 = tb
      ∨ ∃ v, v ∈ tb.queue ∧ v.initiator = i ∧ v.ticket ≠ 0
        ∧ (judgeCancel cfg i w tb).1 = cancelTables tb v := by
  unfold judgeCancel
  split
  · exact Or.inl rfl
  · rename_i t ht
    split
    · rename_i v hv
      obtain ⟨h0, hm, hvt, hvi⟩ := findWaiter_eq_some hv
      exact Or.inr ⟨v, hm, hvi, hvt ▸ h0, rfl⟩
    · exact Or.inl rfl

/-- What a TAKE-NOTICE past the gate can do to the tables (R69). -/
theorem judgeTakeNotice_cases (cfg : ConfigRegs) (i : Initiator) (w : RequestWords) (tb : Tables) :
    (judgeTakeNotice cfg i w tb).1 = tb
      ∨ ∃ n rest, tb.inits[i].notices = n :: rest
        ∧ (judgeTakeNotice cfg i w tb).1
          = { tb with inits := tb.inits.set i { tb.inits[i] with notices := rest } } := by
  unfold judgeTakeNotice
  split
  · exact Or.inl rfl
  · rename_i n rest h
    exact Or.inr ⟨n, rest, h, rfl⟩

/-! ### REGISTER and the requests that change no table -/

/-- What a REGISTER past the gate can do to the tables (R74, R75). -/
theorem judgeRegister_cases (cfg : ConfigRegs) (i : Initiator) (w : RequestWords) (tb : Tables) :
    (tb.inits[i].state.isActive = true ∧ (judgeRegister cfg i w tb).1 = tb)
      ∨ (tb.inits[i].state.isActive = false
        ∧ (judgeRegister cfg i w tb).1 = { tb with inits := tb.inits.set i { tb.inits[i] with
            state := .active cfg.leaseLength
            generation := nextGeneration tb.inits[i].generation } }) := by
  unfold judgeRegister
  split
  · rename_i h; exact Or.inl ⟨by rw [h]; rfl, rfl⟩
  all_goals (rename_i h; exact Or.inr ⟨by rw [h]; rfl, rfl⟩)

theorem judgeRenew_tables (cfg : ConfigRegs) (i : Initiator) (w : RequestWords) (tb : Tables) :
    (judgeRenew cfg i w tb).1 = tb := rfl

theorem judgeLookup_tables (cfg : ConfigRegs) (i : Initiator) (w : RequestWords) (tb : Tables) :
    (judgeLookup cfg i w tb).1 = tb := by
  unfold judgeLookup
  split
  · rfl
  · split <;> rfl

theorem judgeUnregister_tables (cfg : ConfigRegs) (i : Initiator) (w : RequestWords) (tb : Tables) :
    (judgeUnregister cfg i w tb).1 = grantPassIf (hasStake tb i) (leaveActive tb i .unregistered) := rfl

end Sys2Proof.Machine
end

