-- ==== Sys2Proof/Laws/Requests.lean ====
section
/-! SUPPORT. The take and the completion of a request, each said once: what the arbiter offers, what the gate
answers, what the take of a request is when it is offered and when it is not, and what a completion leaves. -/

namespace Sys2Proof.Machine

/-! ### What the arbiter offers -/

/-- The offer of `offered` is the premise `Offers` of the statements. -/
theorem State.offered_eq_some_iff {s : State} {k : RequestKind} {m : MailboxId} {w : RequestWords} :
    s.offered k = some (m, w) ↔ s.Offers m k w := by
  constructor
  · intro h
    unfold State.offered at h
    split at h
    · cases h
    · rename_i hr
      split at h
      · cases h
      · rename_i m' hm
        split at h
        · cases h
        · rename_i w' hw
          split at h
          · rename_i hk
            cases h
            exact ⟨by simpa using hr, hm, hw, hk⟩
          · cases h
  · intro h
    simp [State.offered, h.running, h.chosen, h.captured, h.kind]

theorem State.Offers.offered {s : State} {k : RequestKind} {m : MailboxId} {w : RequestWords}
    (h : s.Offers m k w) : s.offered k = some (m, w) :=
  State.offered_eq_some_iff.mpr h

/-- No offer of this kind when the arbiter hands over no request of it. -/
theorem State.offered_eq_none {s : State} {k : RequestKind} (h : ∀ m w, ¬s.Offers m k w) :
    s.offered k = none := by
  cases ho : s.offered k with
  | none => rfl
  | some p => obtain ⟨m, w⟩ := p; exact absurd (State.offered_eq_some_iff.mp ho) (h m w)

/-- The arbiter's choice is BUSY. -/
theorem State.Offers.busy {s : State} {k : RequestKind} {m : MailboxId} {w : RequestWords}
    (h : s.Offers m k w) : (s.mailbox m).busy = true := by
  simp [Mailbox.busy, h.captured]

/-! ### Ticks before the entry into DORMANT -/

theorem mem_ring (m : MailboxId) : m ∈ ring := by
  cases m <;> simp [ring]

/-- The entry that `entersDormancy` decides is the `EntersDormancy` of the statements. -/
theorem State.entersDormancy_iff {s : State} {m : MailboxId} {k : RequestKind} :
    s.entersDormancy m k = true ↔ s.EntersDormancy m k := by
  have hb : s.soleBusy m = true ↔ ∀ x, x ≠ m → (s.mailbox x).busy = false := by
    simp only [State.soleBusy, List.all_eq_true, Bool.or_eq_true, decide_eq_true_eq, Bool.not_eq_true']
    exact ⟨fun h x hx => (h x (mem_ring x)).resolve_left hx,
      fun h x _ => or_iff_not_imp_left.mpr (h x)⟩
  unfold State.entersDormancy State.EntersDormancy
  rw [Bool.and_eq_true, hb]
  cases hd : s.dirState <;> simp [and_comm]

/-- With no tick waiting there is none to take. -/
theorem settle_of_not_waiting {s : State} (h : ¬s.TickWaits) : settle s = s := by
  obtain ⟨he, hf⟩ := not_or.mp h
  rw [Bool.not_eq_true] at he hf
  have h1 : takeEngineTick s = s := by simp [takeEngineTick, he]
  have h2 : issueBeforeTick s = s := by simp [issueBeforeTick, hf]
  have h3 : takeFenceTick s = s := by simp [takeFenceTick, State.fenceTickReady, hf]
  rw [settle, h1, h2, h3]

/-- Nothing is offered, and so nothing taken first, where no request of this kind is handed over. -/
theorem State.readied_of_not_offered {s : State} {k : RequestKind} (h : ∀ m w, ¬s.Offers m k w) :
    s.readied k = s := by
  simp [State.readied, State.offered_eq_none h]

/-- A request at its take is taken in the state as it stands. -/
theorem State.Takes.readied {s : State} {k : RequestKind} {m : MailboxId} {w : RequestWords}
    (h : s.Takes m k w) : s.readied k = s := by
  rw [State.readied, h.toOffers.offered]
  simp only
  split
  · rename_i he
    exact settle_of_not_waiting (h.prompt (State.entersDormancy_iff.mp he))
  · rfl

/-- Before a request is taken nothing happens, or the ticks that wait are taken. -/
theorem State.readied_cases (s : State) (k : RequestKind) : s.readied k = s ∨ s.readied k = settle s := by
  unfold State.readied
  split
  · split
    · exact Or.inr rfl
    · exact Or.inl rfl
  · exact Or.inl rfl

/-! ### The gate (R20) -/

theorem gate_of_active {d : DirState} {st : InitState} {k : RequestKind} (hd : d ≠ .off)
    (h : st.isActive = true) : gate d st k = none := by
  cases st <;> simp_all [gate, InitState.isActive]

theorem gate_of_refusal {s : State} {i : Initiator} {k : RequestKind} {o : OutcomeCode}
    (h : GateRefusal s i k o) : gate s.dirState s.tables.inits[i].state k = some o := by
  cases h with
  | off h => simp [gate, h]
  | lapsed hon h hk => rw [h]; simp [gate, hon, hk]
  | unregistered hon h hk hl => rw [h]; simp [gate, hon, hk, hl]

/-- An initiator whose own checks apply: ACTIVE, or one of the two states the gate lets pass for the kind. -/
theorem gate_eq_none_iff {d : DirState} {st : InitState} {k : RequestKind} :
    gate d st k = none ↔ d ≠ .off ∧ (st.isActive = true ∨ (st = .lapsed ∧ k = .register)
      ∨ (st = .unregistered ∧ (k = .register ∨ k = .lookup))) := by
  by_cases hd : d = .off
  · simp [gate, hd]
  · cases st <;> simp [gate, hd, InitState.isActive, or_iff_not_imp_left]

/-! ### The lease restart (R21, R79) -/

theorem restartLease_of_active {inits : Vector InitRecord 8} {i : Initiator} {l : Nat}
    (h : inits[i].state.isActive = true) :
    restartLease inits i l = inits.set i { inits[i] with state := .active l } := by
  unfold restartLease
  split
  · rfl
  all_goals (rename_i hs; rw [hs] at h; cases h)

theorem restartLease_of_not_active {inits : Vector InitRecord 8} {i : Initiator} {l : Nat}
    (h : inits[i].state.isActive = false) : restartLease inits i l = inits := by
  unfold restartLease
  split
  · rename_i hs; rw [hs] at h; cases h
  all_goals rfl

/-- The tables at the take of a request are those of `afterTake`. -/
theorem State.leaseRestarted_eq (s : State) (i : Initiator) : s.leaseRestarted i = s.afterTake i := by
  unfold State.leaseRestarted State.afterTake
  by_cases hd : s.dirState = .off
  · simp [hd]
  · cases ha : s.tables.inits[i].state.isActive with
    | true => rw [if_neg hd, if_pos ⟨hd, rfl⟩, restartLease_of_active ha]; rfl
    | false => rw [if_neg hd, if_neg (fun h => nomatch h.2), restartLease_of_not_active ha]

theorem State.afterTake_of_active {s : State} {i : Initiator} (hd : s.dirState ≠ .off)
    (ha : s.tables.inits[i].state.isActive = true) : s.afterTake i = s.renewed i := by
  unfold State.afterTake
  rw [if_pos ⟨hd, ha⟩]

theorem State.afterTake_of_not_active {s : State} {i : Initiator}
    (ha : s.tables.inits[i].state.isActive = false) : s.afterTake i = s.tables := by
  unfold State.afterTake
  rw [if_neg (by rw [ha]; exact fun h => nomatch h.2)]

theorem State.afterTake_of_off {s : State} {i : Initiator} (hd : s.dirState = .off) :
    s.afterTake i = s.tables := by
  simp [State.afterTake, hd]

/-- A refusal of the gate restarts no lease (R21). -/
theorem State.afterTake_of_refusal {s : State} {i : Initiator} {k : RequestKind} {o : OutcomeCode}
    (h : GateRefusal s i k o) : s.afterTake i = s.tables := by
  cases h with
  | off h => exact State.afterTake_of_off h
  | lapsed _ h _ => exact State.afterTake_of_not_active (by rw [h]; rfl)
  | unregistered _ h _ _ => exact State.afterTake_of_not_active (by rw [h]; rfl)

@[simp] theorem State.renewed_claims (s : State) (i : Initiator) : (s.renewed i).claims = s.tables.claims := rfl
@[simp] theorem State.renewed_queue (s : State) (i : Initiator) : (s.renewed i).queue = s.tables.queue := rfl
@[simp] theorem State.renewed_ticketCounter (s : State) (i : Initiator) :
    (s.renewed i).ticketCounter = s.tables.ticketCounter := rfl
@[simp] theorem State.renewed_fenceQueue (s : State) (i : Initiator) :
    (s.renewed i).fenceQueue = s.tables.fenceQueue := rfl

/-- The lease restart changes the state of the requester alone. -/
theorem State.renewed_get (s : State) (i j : Initiator) :
    (s.renewed i).inits[j] =
      if j = i then { s.tables.inits[i] with state := .active s.config.leaseLength } else s.tables.inits[j] := by
  simp only [State.renewed, Fin.getElem_fin, Vector.getElem_set, Fin.val_inj]
  by_cases h : i = j
  · simp [h]
  · rw [if_neg h, if_neg (Ne.symm h)]

@[simp] theorem State.renewed_notices (s : State) (i j : Initiator) :
    (s.renewed i).inits[j.val].notices = s.tables.inits[j.val].notices := by
  have := congrArg InitRecord.notices (s.renewed_get i j)
  simp only [Fin.getElem_fin] at this
  rw [this]
  split
  · rename_i h; rw [h]
  · rfl

@[simp] theorem State.renewed_generation (s : State) (i j : Initiator) :
    (s.renewed i).inits[j.val].generation = s.tables.inits[j.val].generation := by
  have := congrArg InitRecord.generation (s.renewed_get i j)
  simp only [Fin.getElem_fin] at this
  rw [this]
  split
  · rename_i h; rw [h]
  · rfl

/-- The counts over the tables do not see the lease restart. -/
@[simp] theorem State.renewed_openTickets (s : State) (i : Initiator) :
    openTickets (s.renewed i) = openTickets s.tables := by
  simp [openTickets]

@[simp] theorem State.renewed_issuedTicket (s : State) (i : Initiator) :
    issuedTicket (s.renewed i) = issuedTicket s.tables := by
  simp [issuedTicket]

@[simp] theorem State.renewed_openTicketCount (s : State) (i j : Initiator) :
    openTicketCount (s.renewed i) j = openTicketCount s.tables j := by
  simp [openTicketCount]

@[simp] theorem State.renewed_claimCount (s : State) (i j : Initiator) :
    claimCount (s.renewed i) j = claimCount s.tables j := rfl

/-! ### The take of an initiator request -/

theorem State.judgeInitiator_of_active {s : State} {k : RequestKind} {judge : InitiatorJudge} {i : Initiator}
    {w : RequestWords} (hd : s.dirState ≠ .off) (ha : s.tables.inits[i].state.isActive = true) :
    s.judgeInitiator k judge i w = judge s.config i w (s.renewed i) := by
  simp only [State.judgeInitiator, gate_of_active hd ha, State.leaseRestarted_eq,
    State.afterTake_of_active hd ha]

theorem State.judgeInitiator_of_refusal {s : State} {k : RequestKind} {judge : InitiatorJudge} {i : Initiator}
    {w : RequestWords} {o : OutcomeCode} (h : GateRefusal s i k o) :
    s.judgeInitiator k judge i w = (s.tables, .bare o) := by
  simp only [State.judgeInitiator, gate_of_refusal h, State.leaseRestarted_eq, State.afterTake_of_refusal h]

/-- What judging an initiator request can do: the gate refuses, or the request's own judge decides. -/
theorem State.judgeInitiator_cases (s : State) (k : RequestKind) (judge : InitiatorJudge) (i : Initiator)
    (w : RequestWords) :
    (∃ o, s.judgeInitiator k judge i w = (s.afterTake i, .bare o))
      ∨ (gate s.dirState s.tables.inits[i].state k = none
        ∧ s.judgeInitiator k judge i w = judge s.config i w (s.afterTake i)) := by
  unfold State.judgeInitiator
  rw [State.leaseRestarted_eq]
  split
  · exact Or.inl ⟨_, rfl⟩
  · rename_i h; exact Or.inr ⟨h, rfl⟩

theorem takeInitiator_of_takes {s : State} {k : RequestKind} {judge : InitiatorJudge} {i : Initiator}
    {w : RequestWords} (h : s.Takes (.initiator i) k w) :
    takeInitiator k judge s =
      State.complete { s with tables := (s.judgeInitiator k judge i w).1 } (.initiator i)
        (s.judgeInitiator k judge i w).2 := by
  rw [takeInitiator, h.readied, serveInitiator, h.toOffers.offered]

theorem takeInitiator_of_active {s : State} {k : RequestKind} {judge : InitiatorJudge} {i : Initiator}
    {w : RequestWords} (h : s.TakesActive i k w) :
    takeInitiator k judge s =
      State.complete { s with tables := (judge s.config i w (s.renewed i)).1 } (.initiator i)
        (judge s.config i w (s.renewed i)).2 := by
  rw [takeInitiator_of_takes h.taken, State.judgeInitiator_of_active h.enabled h.active]

theorem takeInitiator_of_not_offered {s : State} {k : RequestKind} {judge : InitiatorJudge}
    (h : ∀ m w, ¬s.Offers m k w) : takeInitiator k judge s = s := by
  rw [takeInitiator, State.readied_of_not_offered h, serveInitiator, State.offered_eq_none h]

/-- The service of an initiator request changes nothing, or judges the request that the arbiter offers. -/
theorem serveInitiator_cases (k : RequestKind) (judge : InitiatorJudge) (s : State) :
    serveInitiator k judge s = s ∨ ∃ i w, s.Offers (.initiator i) k w
      ∧ serveInitiator k judge s = State.complete { s with tables := (s.judgeInitiator k judge i w).1 }
          (.initiator i) (s.judgeInitiator k judge i w).2 := by
  unfold serveInitiator
  split
  · rename_i i w h; exact Or.inr ⟨i, w, State.offered_eq_some_iff.mp h, rfl⟩
  · exact Or.inl rfl
  · exact Or.inl rfl

/-! ### The take of a management request -/

theorem takeManagement_of_takes {s : State} {k : RequestKind} {judge : ManagementJudge} {w : RequestWords}
    (h : s.Takes .management k w) :
    takeManagement k judge s = (judge w s).1.complete .management (judge w s).2 := by
  rw [takeManagement, h.readied, serveManagement, h.toOffers.offered]

theorem takeManagement_of_not_offered {s : State} {k : RequestKind} {judge : ManagementJudge}
    (h : ∀ m w, ¬s.Offers m k w) : takeManagement k judge s = s := by
  rw [takeManagement, State.readied_of_not_offered h, serveManagement, State.offered_eq_none h]

/-- The service of a management request changes nothing, or judges the request that the arbiter offers. -/
theorem serveManagement_cases (k : RequestKind) (judge : ManagementJudge) (s : State) :
    serveManagement k judge s = s ∨ ∃ w, s.Offers .management k w
      ∧ serveManagement k judge s = (judge w s).1.complete .management (judge w s).2 := by
  unfold serveManagement
  split
  · rename_i w h; exact Or.inr ⟨w, State.offered_eq_some_iff.mp h, rfl⟩
  · exact Or.inl rfl
  · exact Or.inl rfl

/-! ### The take of a request of an undefined kind -/

theorem takeUndefined_of_takes_initiator {s : State} {i : Initiator} {w : RequestWords}
    (h : s.Takes (.initiator i) .undefined w) :
    takeUndefined s =
      State.complete { s with tables := s.afterTake i } (.initiator i) (.bare .badRequest) := by
  rw [takeUndefined, h.readied, serveUndefined, h.toOffers.offered, ← State.leaseRestarted_eq]

theorem takeUndefined_of_takes_management {s : State} {w : RequestWords}
    (h : s.Takes .management .undefined w) :
    takeUndefined s = s.complete .management (.bare .badRequest) := by
  rw [takeUndefined, h.readied, serveUndefined, h.toOffers.offered]

theorem takeUndefined_of_not_offered {s : State} (h : ∀ m w, ¬s.Offers m .undefined w) :
    takeUndefined s = s := by
  rw [takeUndefined, State.readied_of_not_offered h, serveUndefined, State.offered_eq_none h]

/-- The service of a request of an undefined kind changes nothing, or completes the one that is offered. -/
theorem serveUndefined_cases (s : State) :
    serveUndefined s = s
      ∨ (∃ i, s.inReset = false ∧ serveUndefined s
          = State.complete { s with tables := s.afterTake i } (.initiator i) (.bare .badRequest))
      ∨ serveUndefined s = s.complete .management (.bare .badRequest) := by
  unfold serveUndefined
  split
  · rename_i i w h
    rw [State.leaseRestarted_eq]
    exact Or.inr (Or.inl ⟨i, (State.offered_eq_some_iff.mp h).running, rfl⟩)
  · exact Or.inr (Or.inr rfl)
  · exact Or.inl rfl

/-! ### Completion (R156, R162, R171) -/

theorem State.anyBusy_eq_false {s : State} : s.anyBusy = false ↔ ∀ m, (s.mailbox m).busy = false := by
  simp only [State.anyBusy, List.any_eq_false, Bool.not_eq_true]
  exact ⟨fun h m => h m (mem_ring m), fun h m _ => h m⟩

theorem State.enterDormancy_eq (s : State) :
    s.enterDormancy = { s with dirState := s.enterDormancy.dirState } := by
  unfold State.enterDormancy
  split <;> rfl

/-- The directory state after a completion, from the state `s` before it and the state `u` in which only the
mailbox `m` was completed. -/
theorem State.dormancyJudged {s u : State} {m : MailboxId} (hd : u.dirState = s.dirState)
    (hm : (u.mailbox m).busy = false) (ho : ∀ x, x ≠ m → u.mailbox x = s.mailbox x) :
    DormancyJudged s u.enterDormancy m where
  entered hq hn := by
    have hb : u.anyBusy = false := by
      refine State.anyBusy_eq_false.mpr fun x => ?_
      by_cases hx : x = m
      · rw [hx, hm]
      · rw [ho x hx, hn x hx]
    simp [State.enterDormancy, hd, hq, hb]
  kept h := by
    unfold State.enterDormancy
    rw [if_neg]
    · exact hd
    · rintro ⟨hq, hb⟩
      rcases h with h | ⟨x, hx, hxb⟩
      · exact h (hd ▸ hq)
      · rw [← ho x hx, State.anyBusy_eq_false.mp hb x] at hxb
        cases hxb

theorem completedInitiator_complete (s : State) (i : Initiator) (r : Reply) :
    CompletedInitiator s (s.complete (.initiator i) r) i r where
  mailbox := by simp [Mailbox.answered, Mailbox.complete]
  others j hj := by
    have hv : i.val ≠ j.val := fun h => hj (Fin.ext h.symm)
    simp [hv]
  pointer := by simp
  dormancy := by
    refine State.dormancyJudged (s := s) rfl ?_ ?_
    · simp [State.mailbox, Mailbox.busy, Mailbox.complete]
    · intro x hx
      cases x with
      | management => rfl
      | initiator j =>
        have hv : i.val ≠ j.val := fun h => hx (congrArg _ (Fin.ext h.symm))
        simp [State.mailbox, hv]
  rest := by
    simp only [State.complete]
    rw [State.enterDormancy_eq]

theorem completedManagement_complete (s : State) (r : Reply) :
    CompletedManagement s (s.complete .management r) r where
  mailbox := by simp [Mailbox.answered, Mailbox.complete]
  pointer := by simp
  submitter := by simp
  unowned h := by simp [endOwnership, h]
  ended o h hs hm := by simp [endOwnership, h, hs, hm]
  owned o h hk := by
    rcases hk with hk | hk
    · simp [endOwnership, h, hk]
    · simp [endOwnership, h, hk]
  dormancy := by
    refine State.dormancyJudged (s := s) rfl rfl ?_
    intro x hx
    cases x with
    | management => exact absurd rfl hx
    | initiator j => rfl
  rest := by
    simp only [State.complete]
    rw [State.enterDormancy_eq]

end Sys2Proof.Machine
end

