-- ==== Sys2Proof/Laws/Exec.lean ====
section
/-! SUPPORT. What one step can do to the tables, said once over all commands: `TimeEvents` are the events of ticks and
REFCLK that may come before a command's own, `TablesStep s` lists what one event can make of the tables, and
`exec_tables` and `step_tables` say that there is no other result.  A proof that every step keeps a law of the tables
is a case split on `TablesStep`, used for the events of time (`TimeEvents.preserve`) and for the command's own. -/

namespace Sys2Proof.Machine

/-- The judges of the initiator requests, with the kind whose gate stands before each. -/
def initiatorJudges : List (RequestKind × InitiatorJudge) :=
  [(.register, judgeRegister), (.unregister, judgeUnregister), (.renew, judgeRenew), (.claim, judgeClaim),
    (.upgrade, judgeUpgrade), (.downgrade, judgeDowngrade), (.release, judgeRelease), (.cancel, judgeCancel),
    (.takeNotice, judgeTakeNotice), (.lookup, judgeLookup)]

/-- What one event can make of the tables of `s`. -/
inductive TablesStep (s : State) : Tables → Prop where
  /-- Nothing. -/
  | keep : TablesStep s s.tables
  /-- A request that its gate refuses, or of an undefined kind: the lease restart alone. -/
  | taken (i : Initiator) (hr : s.inReset = false) : TablesStep s (s.afterTake i)
  /-- A request past its gate. -/
  | judged (k : RequestKind) (judge : InitiatorJudge) (i : Initiator) (w : RequestWords)
      (hr : s.inReset = false) (hm : (k, judge) ∈ initiatorJudges)
      (hg : gate s.dirState s.tables.inits[i].state k = none) :
      TablesStep s (judge s.config i w (s.afterTake i)).1
  /-- EVICT of an ACTIVE initiator. -/
  | evicted (i : Initiator) (hr : s.inReset = false) (ha : s.tables.inits[i].state.isActive = true) :
      TablesStep s (evictTables s.tables i)
  /-- CLEAR-QUARANTINE of a QUARANTINED record. -/
  | cleared (n : ClaimNo) (c : Claim) (hr : s.inReset = false) (hg : s.tables.claims.get n = some c)
      (hq : c.phase = .quarantined) :
      TablesStep s (grantPass { s.tables with claims := s.tables.claims.free n })
  /-- DISABLE. -/
  | tornDown (hr : s.inReset = false) : TablesStep s (teardownTables s.tables)
  /-- A tick at the directory engine. -/
  | ticked (hr : s.inReset = false) : TablesStep s (tickTables s.tables)
  /-- The issue of a fence. -/
  | issued (i : Initiator) (rest : List Initiator) (hr : s.inReset = false) (hf : s.flight = .idle)
      (hq : s.tables.fenceQueue = i :: rest) : TablesStep s (issueTables s.tables i rest)
  /-- The DONE outcome of the fence in flight. -/
  | done (i : Initiator) (hr : s.inReset = false) (hf : s.flight.initiator = some i) :
      TablesStep s (doneOutcome s.tables i)
  /-- The FAILED outcome of the fence in flight. -/
  | failed (i : Initiator) (hr : s.inReset = false) (hf : s.flight.initiator = some i) :
      TablesStep s (failedOutcome s.tables i)
  /-- The release of RESETn. -/
  | reset (present : PresentCount) : TablesStep s (resetTables present)

/-! ### Ticks that are taken first, and time -/

/-- One event of the ticks or of REFCLK that a command may bring before its own: a tick at the directory engine, an
issue, a tick at the fence unit, and periods of REFCLK. -/
inductive TimeEvent (s : State) : State → Prop where
  | engineTick : TimeEvent s (takeEngineTick s)
  | issue : TimeEvent s (issueFence s)
  | fenceTick : TimeEvent s (takeFenceTick s)
  | periods (n : Nat) (hr : s.inReset = false) : TimeEvent s (advance n s)

/-- Any number of such events. -/
abbrev TimeEvents : State → State → Prop :=
  Relation.ReflTransGen TimeEvent

theorem settle_events (s : State) : TimeEvents s (settle s) := by
  refine .trans (.single .engineTick) (.trans ?_ (.single .fenceTick))
  unfold issueBeforeTick
  split
  · exact .single .issue
  · exact .refl

theorem elapse_events (n : Nat) (s : State) : TimeEvents s (elapse n s) := by
  unfold elapse
  split
  · exact .refl
  · rename_i hr
    exact .tail (settle_events s) (.periods n (by simpa using hr))

theorem runTicks_events (k : Nat) (s : State) : TimeEvents s (runTicks k s) := by
  induction k generalizing s with
  | zero => exact .refl
  | succ k ih => exact .trans (elapse_events _ _) (ih _)

theorem runToWindowEnd_events (s : State) : TimeEvents s (runToWindowEnd s) := by
  unfold runToWindowEnd
  split
  · rename_i left _
    refine .trans (runTicks_events (s.ticksBefore left) s) ?_
    unfold endWindow
    split
    · exact elapse_events _ _
    · exact .refl
  · exact .refl

/-- What the events of time leave alone. -/
theorem TimeEvents.keeps {s t : State} (h : TimeEvents s t) :
    t.mailboxes = s.mailboxes ∧ t.mgmt = s.mgmt ∧ t.arbiter = s.arbiter ∧ t.dirState = s.dirState
      ∧ t.config = s.config ∧ t.straps = s.straps ∧ t.inReset = s.inReset ∧ t.pending = s.pending := by
  induction h with
  | refl => exact ⟨rfl, rfl, rfl, rfl, rfl, rfl, rfl, rfl⟩
  | tail _ he ih => cases he <;> simpa using ih

theorem readied_events (s : State) (k : RequestKind) : TimeEvents s (s.readied k) := by
  rcases State.readied_cases s k with h | h
  · rw [h]
  · rw [h]
    exact settle_events s

/-- Every command answers a next state. -/
theorem exec_answers (c : Instr) (s : State) : ∃ t, exec c s = .next t := by
  cases c <;> exact ⟨_, rfl⟩

/-! ### The commands that judge a request -/

theorem serveInitiator_tables {k : RequestKind} {judge : InitiatorJudge} (hm : (k, judge) ∈ initiatorJudges)
    (s : State) : TablesStep s (serveInitiator k judge s).tables := by
  rcases serveInitiator_cases k judge s with h | ⟨i, w, ht, h⟩
  · rw [h]
    exact .keep
  · rw [h, State.complete_tables]
    rcases State.judgeInitiator_cases s k judge i w with ⟨o, hj⟩ | ⟨hg, hj⟩
    · rw [hj]
      exact .taken i ht.running
    · rw [hj]
      exact .judged k judge i w ht.running hm hg

/-- A management request whose judge leaves the tables. -/
theorem serveManagement_tables {k : RequestKind} {judge : ManagementJudge}
    {s : State} (hj : ∀ w, s.inReset = false → TablesStep s (judge w s).1.tables) :
    TablesStep s (serveManagement k judge s).tables := by
  rcases serveManagement_cases k judge s with h | ⟨w, ht, h⟩
  · rw [h]
    exact .keep
  · rw [h, State.complete_tables]
    exact hj w ht.running

theorem judgeEvict_tables (w : RequestWords) (s : State) (hr : s.inReset = false) :
    TablesStep s (judgeEvict w s).1.tables := by
  unfold judgeEvict
  split
  · exact .keep
  · split
    · exact .keep
    · rename_i i _
      split
      · rename_i l h
        exact .evicted i hr (by rw [h]; rfl)
      all_goals exact .keep

theorem judgeClearQuarantine_tables (w : RequestWords) (s : State) (hr : s.inReset = false) :
    TablesStep s (judgeClearQuarantine w s).1.tables := by
  unfold judgeClearQuarantine
  split
  · exact .keep
  · split
    · exact .keep
    · rename_i n _
      split
      · rename_i h
        obtain ⟨c, hg, hq⟩ := Option.map_eq_some_iff.mp h
        exact .cleared n c hr hg hq
      · exact .keep

theorem judgeDisable_tables (w : RequestWords) (s : State) (hr : s.inReset = false) :
    TablesStep s (judgeDisable w s).1.tables := by
  unfold judgeDisable
  split
  · exact .keep
  all_goals exact .tornDown hr

/-! ### Bus accesses, queries and time -/

@[simp] theorem busWrite_tables (who : Initiator) (addr : BitVec 8) (data : Word) (s : State) :
    (busWrite who addr data s).tables = s.tables := by
  unfold busWrite
  split
  · rfl
  · rw [State.readyResponse_tables]
    unfold writeRegion
    split
    · unfold writeManagement
      split
      · rfl
      · split <;> rfl
    · unfold writeConfig
      split
      · unfold writeConfigReg
        split <;> rfl
      · split <;> rfl
    · unfold writeInitiator
      split <;> rfl
    all_goals rfl

@[simp] theorem takeQuery_tables (who : Initiator) (granule : Granule) (kind : AccessKind) (s : State) :
    (takeQuery who granule kind s).tables = s.tables := by
  unfold takeQuery
  split
  · rfl
  · unfold answerQuery
    split
    · rfl
    · rfl
    · unfold latchCapture
      split <;> rfl

theorem takeEngineTick_tables (s : State) : TablesStep s (takeEngineTick s).tables := by
  unfold takeEngineTick
  split
  · rename_i h
    exact .ticked (by simp_all)
  · exact .keep

/-! ### The fence unit -/

theorem issueFence_tables (s : State) : TablesStep s (issueFence s).tables := by
  unfold issueFence
  split
  · exact .keep
  · rename_i hr
    split
    · rename_i i rest hf hq
      exact .issued i rest (by simpa using hr) hf hq
    · exact .keep

theorem fenceAnswer_tables (code : BitVec 2) (s : State) : TablesStep s (fenceAnswer code s).tables := by
  unfold fenceAnswer
  split
  · exact .keep
  · rename_i hr
    have hr : s.inReset = false := by simpa using hr
    split
    · unfold takeDone
      split
      · exact .keep
      all_goals
        rename_i h
        exact .done _ hr (by rw [h]; rfl)
    · split
      · unfold takeDefer
        split <;> exact .keep
      · exact .keep

theorem fenceTickReady_running {s : State} (h : s.fenceTickReady = true) : s.inReset = false := by
  simp [State.fenceTickReady] at h
  exact h.1.1.1

theorem takeFenceTick_tables (s : State) : TablesStep s (takeFenceTick s).tables := by
  unfold takeFenceTick
  split
  · rename_i h
    unfold tickFlight
    split
    · rename_i i timer hf
      split
      · exact .failed i (fenceTickReady_running h) (by rw [show s.flight = _ from hf]; rfl)
      · exact .keep
    all_goals exact .keep
  · exact .keep

theorem expireFenceTimer_tables (s : State) : TablesStep s (expireFenceTimer s).tables := by
  unfold expireFenceTimer
  split
  · rename_i i hf
    split
    · rename_i h
      refine .failed i (fenceTickReady_running h) ?_
      unfold FenceFlight.expiring at hf
      split at hf
      · rename_i j timer hj
        split at hf
        · rw [hj]
          exact hf
        · cases hf
      all_goals cases hf
    · exact .keep
  · exact .keep

/-! ### Every command -/

/-- What one event of time can do to the tables. -/
theorem TimeEvent.tables {s t : State} (h : TimeEvent s t) : TablesStep s t.tables := by
  cases h with
  | engineTick => exact takeEngineTick_tables s
  | issue => exact issueFence_tables s
  | fenceTick => exact takeFenceTick_tables s
  | periods n _ => exact .keep

/-- What one command can do to the tables: the events of time that it brings first, and then its own. -/
theorem exec_tables {c : Instr} {s t : State} (h : exec c s = .next t) :
    ∃ u, TimeEvents s u ∧ TablesStep u t.tables := by
  cases c <;> simp only [exec, execRegister, execUnregister, execRenew, execClaim, execUpgrade, execDowngrade,
    execRelease, execCancel, execTakeNotice, execLookup, execUndefinedRequestKind, execEnable, execDisable,
    execDormant, execEvict, execClearQuarantine, execClearCapture, execInspectClaim, execInspectInitiator,
    execInspectWaiter, execSubmission, execAttentionEnableWrite, execFlagClear, execWindowWrite,
    execTakeOwnership, execOwnershipWindowEnd, execConfigWrite, execConfigRefusalClear, execCheckQuery,
    execFenceIssue, execFenceDone, execFenceDefer, execFenceAnswerOtherKind, execTick, execDirectoryTick,
    execFenceUnitTick, execFenceTimerExpiry, execWaitExpiry, execLapse, execResetn, execResetnAsserted,
    Host.Outcome.next.injEq] at h <;> subst h
  case evict =>
    exact ⟨_, readied_events s .evict, serveManagement_tables fun w hr => judgeEvict_tables w _ hr⟩
  case clearQuarantine =>
    exact ⟨_, readied_events s .clearQuarantine,
      serveManagement_tables fun w hr => judgeClearQuarantine_tables w _ hr⟩
  case disable =>
    exact ⟨_, readied_events s .disable, serveManagement_tables fun w hr => judgeDisable_tables w _ hr⟩
  case enable | dormant | clearCapture | inspectClaim | inspectInitiator | inspectWaiter =>
    refine ⟨_, readied_events s _, serveManagement_tables fun w _ => ?_⟩
    first
      | (unfold judgeEnable; split <;> exact .keep)
      | (unfold judgeDormant; split <;> exact .keep)
      | exact TablesStep.keep
      | (unfold judgeInspectClaim; split <;> exact .keep)
      | (unfold judgeInspectInitiator; split
         · exact .keep
         · split <;> exact .keep)
      | (unfold judgeInspectWaiter; split
         · exact .keep
         · split <;> exact .keep)
  case undefinedRequestKind =>
    refine ⟨_, readied_events s .undefined, ?_⟩
    rw [takeUndefined]
    rcases serveUndefined_cases (s.readied .undefined) with h | ⟨i, hr, h⟩ | h
    · rw [h]
      exact .keep
    · rw [h, State.complete_tables]
      exact .taken i hr
    · rw [h, State.complete_tables]
      exact .keep
  case register | unregister | renew | claim | upgrade | downgrade | release | cancel | takeNotice | lookup =>
    exact ⟨_, readied_events s _, serveInitiator_tables (by simp [initiatorJudges]) _⟩
  case tick => exact ⟨_, elapse_events _ s, .keep⟩
  case ownershipWindowEnd => exact ⟨_, runToWindowEnd_events s, .keep⟩
  all_goals refine ⟨s, .refl, ?_⟩
  case fenceIssue => exact issueFence_tables s
  case fenceDone | fenceDefer | fenceAnswerOtherKind => exact fenceAnswer_tables _ s
  case fenceUnitTick => exact takeFenceTick_tables s
  case fenceTimerExpiry => exact expireFenceTimer_tables s
  case directoryTick => exact takeEngineTick_tables s
  case waitExpiry | lapse =>
    split
    · exact takeEngineTick_tables s
    · exact .keep
  case resetn pres autoon mgrall => exact .reset (presentOf pres)
  all_goals
    first
      | exact TablesStep.keep
      | (simp only [busWrite_tables, takeQuery_tables]
         exact TablesStep.keep)

/-- What one step can do to the tables, from the state `s'` that is `s` without the command taken. -/
theorem step_tables {s t : State} (h : step s = .next t) :
    ∃ s' u, s' = { s with pending := s'.pending } ∧ TimeEvents s' u ∧ TablesStep u t.tables := by
  unfold step at h
  split at h
  · cases h
    exact ⟨s, _, rfl, elapse_events 1 s, .keep⟩
  · rename_i c rest _
    obtain ⟨u, hu, ht⟩ := exec_tables h
    exact ⟨{ s with pending := rest }, u, rfl, hu, ht⟩

/-- A property that each event of time keeps is kept by any number of them. -/
theorem TimeEvents.preserve {P : State → Prop} (hP : ∀ s t, TimeEvent s t → P s → P t) {s t : State}
    (h : TimeEvents s t) (hs : P s) : P t := by
  induction h with
  | refl => exact hs
  | tail _ he ih => exact hP _ _ he ih

end Sys2Proof.Machine
end

