-- ==== Sys2Proof/Laws/Time.lean ====
section
/-! SUPPORT. Time, each function said once: what the taking of the waiting ticks leaves, what periods of REFCLK are up to
the next tick, and how a run to the end of the ownership window goes from tick to tick. -/

namespace Sys2Proof.Machine

/-! ### The ticks that wait (R97, R177) -/

/-- A due issue before the fence unit's tick leaves none due. -/
theorem issueDue_issueFence {s : State} (hr : s.inReset = false) : (issueFence s).issueDue = false := by
  unfold issueFence
  rw [if_neg (by simp [hr])]
  split
  · simp [State.issueDue]
  · rename_i h
    unfold State.issueDue
    cases hf : s.flight with
    | idle =>
      cases hq : s.tables.fenceQueue with
      | nil => rfl
      | cons i rest => exact absurd hq (h i rest hf)
    | timed i timer => rfl
    | deferred i => rfl

theorem takeEngineTick_engineTick {s : State} (hr : s.inReset = false) (hd : s.dirState ≠ .dormant) :
    (takeEngineTick s).engineTick = false := by
  unfold takeEngineTick
  cases he : s.engineTick <;> simp [hr, hd, he]

/-- Outside DORMANT no tick waits any more once the waiting ones were taken. -/
theorem settle_not_waiting {s : State} (hr : s.inReset = false) (hd : s.dirState ≠ .dormant) :
    ¬(settle s).TickWaits := by
  have hf : (settle s).fenceTick = false := by
    unfold settle takeFenceTick
    split
    · simp [State.fenceTickTaken]
    · rename_i h
      simp only [State.fenceTickReady, Bool.and_eq_true, Bool.not_eq_true', not_and, Bool.not_eq_false,
        State.issueBeforeTick_inReset, State.takeEngineTick_inReset, hr, State.issueBeforeTick_dirState,
        State.takeEngineTick_dirState, hd, decide_false, State.issueBeforeTick_fenceTick,
        State.takeEngineTick_fenceTick, true_and, and_self] at h
      cases ht : s.fenceTick with
      | false => simp [ht]
      | true =>
        have h := h ht
        unfold issueBeforeTick at h
        split at h
        · rw [issueDue_issueFence (by simpa using hr)] at h
          cases h.1
        · rename_i hn
          exact absurd h.2 (by simpa [ht] using hn)
  have he : (settle s).engineTick = false := by
    rw [State.settle_engineTick, takeEngineTick_engineTick hr hd]
  rintro (h | h)
  · rw [he] at h
    cases h
  · rw [hf] at h
    cases h

/-- `settle` is the `Settled` of the statements. -/
theorem settled_settle (s : State) : Settled s (settle s) := by
  refine ⟨takeEngineTick s, issueBeforeTick (takeEngineTick s), rfl, ?_, ?_, rfl⟩
  · intro hf hh
    simp only [exec, execFenceIssue, issueBeforeTick, hf, hh, Bool.and_self, if_true]
  · intro h
    unfold issueBeforeTick
    rw [if_neg]
    rcases h with h | h <;> rw [h] <;> simp

/-! ### Periods of REFCLK -/

theorem elapse_eq_advance {n : Nat} {s : State} (hr : s.inReset = false) (h : ¬s.TickWaits) :
    elapse n s = advance n s := by
  rw [elapse, if_neg (by simp [hr]), settle_of_not_waiting h]

/-- The ticks that wait may be taken beforehand. -/
theorem elapse_settle {n : Nat} {s : State} (hr : s.inReset = false) (hd : s.dirState ≠ .dormant) :
    elapse n (settle s) = elapse n s := by
  rw [elapse_eq_advance (by simpa using hr) (settle_not_waiting hr hd), elapse, if_neg (by simp [hr])]

@[simp] theorem elapse_usCount {n : Nat} {s : State} (hr : s.inReset = false) :
    (elapse n s).usCount = s.usCount + BitVec.ofNat 32 n := by
  rw [elapse, if_neg (by simp [hr])]
  simp [advance]

@[simp] theorem elapse_countdown {n : Nat} {s : State} (hr : s.inReset = false) :
    (elapse n s).countdown = if n < s.countdown then s.countdown - n else s.config.tickPeriod := by
  rw [elapse, if_neg (by simp [hr])]
  simp [advance, State.countdownAfter]

/-- The window that is left counts the microseconds to its end. -/
theorem State.windowLeft_eq {s : State} {o : Ownership} (ho : s.ownership = some o)
    (hs : o.submitted = false) : s.windowLeft = some (o.windowEnd - s.usCount).toNat := by
  simp [State.windowLeft, ho, hs]

theorem elapse_ownership {n : Nat} {s : State} (hr : s.inReset = false) :
    (elapse n s).ownership = if s.windowEndsWithin n then none else s.ownership := by
  have h : (settle s).windowEndsWithin n = s.windowEndsWithin n := by
    simp [State.windowEndsWithin, State.windowLeft]
  rw [elapse, if_neg (by simp [hr])]
  simp [advance, h]

/-- Before its end a window stands, and that much less is left of it. -/
theorem elapse_before_end {n : Nat} {s : State} {o : Ownership} (hr : s.inReset = false)
    (ho : s.ownership = some o) (hs : o.submitted = false) (hn : n < (o.windowEnd - s.usCount).toNat) :
    (elapse n s).ownership = some o
      ∧ (o.windowEnd - (elapse n s).usCount).toNat = (o.windowEnd - s.usCount).toNat - n := by
  constructor
  · rw [elapse_ownership hr, State.windowEndsWithin, State.windowLeft_eq ho hs]
    simp only [decide_eq_false (Nat.not_le.mpr hn), ho, Bool.false_eq_true, if_false]
  · rw [elapse_usCount hr]
    have h1 := o.windowEnd.isLt
    have h2 := s.usCount.isLt
    simp only [BitVec.toNat_sub, BitVec.toNat_add, BitVec.toNat_ofNat] at hn ⊢
    omega

/-- At its end a window is over. -/
theorem elapse_at_end {n : Nat} {s : State} {o : Ownership} (hr : s.inReset = false)
    (ho : s.ownership = some o) (hs : o.submitted = false) (hn : (o.windowEnd - s.usCount).toNat = n) :
    (elapse n s).ownership = none ∧ (elapse n s).usCount = o.windowEnd := by
  constructor
  · rw [elapse_ownership hr, State.windowEndsWithin, State.windowLeft_eq ho hs]
    simp only [hn, Nat.le_refl, decide_true, if_true]
  · rw [elapse_usCount hr, ← hn, BitVec.ofNat_toNat, BitVec.setWidth_eq, BitVec.add_comm,
      BitVec.sub_add_cancel]

/-- Periods up to the next tick are the `Elapsed` of the statements. -/
theorem elapsed_advance (s : State) (n : Nat) : Elapsed s (advance n s) n where
  delivered h1 h2 := by
    have hd : s.delivers n = true := by simp [State.delivers, h1, h2]
    simp only [advance, hd, if_true, Bool.or_true, true_and, State.issueDue, Bool.and_eq_true,
      decide_eq_true_eq, Bool.not_eq_true', List.isEmpty_eq_false_iff, ne_eq]
  undelivered h1 := by
    have hd : s.delivers n = false := by rcases h1 with h1 | h1 <;> simp [State.delivers, h1]
    simp [advance, hd]
  ended o ho hs hn := by
    simp only [advance, State.windowEndsWithin, State.windowLeft_eq ho hs, decide_eq_true hn, if_true]
  owned o ho hs := by
    cases hb : o.submitted with
    | true => simp [advance, State.windowEndsWithin, State.windowLeft, ho, hb]
    | false =>
      have hn := Nat.not_le.mpr (hs.resolve_left (by simp [hb]))
      simp only [advance, State.windowEndsWithin, State.windowLeft_eq ho hb, decide_eq_false hn, ho,
        Bool.false_eq_true, if_false]
  unowned ho := by simp [advance, State.windowEndsWithin, State.windowLeft, ho]
  rest := by simp only [advance, State.countdownAfter]

/-- The taking of the waiting ticks leaves what the arbiter offers. -/
@[simp] theorem settle_offered (s : State) (k : RequestKind) : (settle s).offered k = s.offered k := by
  have hm : ∀ x, (settle s).mailbox x = s.mailbox x := by
    intro x
    cases x <;> simp [State.mailbox]
  simp only [State.offered, State.settle_inReset, State.arbiterChoice, State.settle_arbiter, hm]

/-! ### To the end of the window -/

theorem runToWindowEnd_near {s : State} {o : Ownership} (ho : s.ownership = some o) (hs : o.submitted = false)
    (hn : (o.windowEnd - s.usCount).toNat ≤ s.countdown) :
    runToWindowEnd s = elapse (o.windowEnd - s.usCount).toNat s := by
  simp only [runToWindowEnd, State.windowLeft_eq ho hs, State.ticksBefore, if_pos hn, runTicks, endWindow]

/-- A run to the end of a window that a tick comes before goes over that tick. -/
theorem runToWindowEnd_tick {s : State} {o : Ownership} (hr : s.inReset = false) (ho : s.ownership = some o)
    (hs : o.submitted = false) (hp : 0 < s.config.tickPeriod)
    (hn : s.countdown < (o.windowEnd - s.usCount).toNat) :
    runToWindowEnd s = runToWindowEnd (runToTick s) := by
  obtain ⟨h1, h2⟩ := elapse_before_end hr ho hs hn
  have hc : (elapse s.countdown s).countdown = s.config.tickPeriod := by
    rw [elapse_countdown hr, if_neg (Nat.lt_irrefl _)]
  have hl : (elapse s.countdown s).windowLeft = some ((o.windowEnd - s.usCount).toNat - s.countdown) := by
    rw [State.windowLeft_eq h1 hs, h2]
  have ht : s.ticksBefore (o.windowEnd - s.usCount).toNat
      = (elapse s.countdown s).ticksBefore ((o.windowEnd - s.usCount).toNat - s.countdown) + 1 := by
    simp only [State.ticksBefore, hc, State.elapse_config, if_neg (Nat.not_le.mpr hn)]
    generalize (o.windowEnd - s.usCount).toNat = left at hn
    split
    · rename_i h
      rw [Nat.div_eq_of_lt (by omega)]
    · rename_i h
      have he : left - s.countdown - 1 = (left - s.countdown - s.config.tickPeriod - 1) + s.config.tickPeriod := by
        omega
      rw [he, Nat.add_div_right _ hp]
      omega
  unfold runToWindowEnd runToTick
  rw [State.windowLeft_eq ho hs, hl]
  simp only [ht, runTicks, runToTick]

end Sys2Proof.Machine
end

