-- ==== Sys2Proof/Laws/Words.lean ====
section
/-! SUPPORT. Fields of the words that `place` builds: what a field reads in a word joined from several, in the
field that was placed, and in a field apart from it. -/

namespace Sys2Proof.Machine

/-- A field of a joined word is the join of the fields. -/
@[simp] theorem bitField_or (lo width : Nat) (a b : Word) :
    bitField lo width (a ||| b) = bitField lo width a ||| bitField lo width b := by
  unfold bitField
  rw [← BitVec.toNat_or]
  congr 1
  ext k hk
  simp

@[simp] theorem bitField_zero (lo width : Nat) : bitField lo width 0 = 0 := by
  unfold bitField
  have : (0 : Word).extractLsb' lo width = 0 := by
    ext k hk
    simp
  rw [this]
  simp

theorem bitField_lt (lo width : Nat) (w : Word) : bitField lo width w < 2 ^ width :=
  (w.extractLsb' lo width).isLt

/-- A placed field reads as the value placed, cut to its width. -/
theorem bitField_place_self {lo width : Nat} (v : Nat) (h : lo + width ≤ 32) :
    bitField lo width (place lo width v) = v % 2 ^ width := by
  unfold bitField place
  have : (((BitVec.ofNat width v).setWidth 32 <<< lo).extractLsb' lo width) = BitVec.ofNat width v := by
    ext k hk
    simp [show lo + k < 32 by omega, hk]
  rw [this]
  simp

/-- A field apart from the placed one reads 0. -/
theorem bitField_place_apart {lo width lo' width' : Nat} (v : Nat) (h : lo + width ≤ lo' ∨ lo' + width' ≤ lo) :
    bitField lo width (place lo' width' v) = 0 := by
  unfold bitField place
  have : (((BitVec.ofNat width' v).setWidth 32 <<< lo').extractLsb' lo width) = 0 := by
    ext k hk
    simp only [BitVec.getElem_extractLsb', BitVec.getLsbD_shiftLeft, BitVec.getLsbD_setWidth]
    rcases h with h | h
    · simp [show lo + k < lo' by omega]
    · simp [BitVec.getLsbD_ofNat, show ¬lo + k - lo' < width' by omega]
  rw [this]
  simp

/-- A one-bit field placed from a truth value. -/
theorem bitField_placeBit_self {lo : Nat} (b : Bool) (h : lo + 1 ≤ 32) :
    bitField lo 1 (placeBit lo b) = b.toNat := by
  unfold placeBit
  rw [bitField_place_self _ h]
  cases b <;> rfl

theorem bitField_placeBit_apart {lo width lo' : Nat} (b : Bool) (h : lo + width ≤ lo' ∨ lo' + 1 ≤ lo) :
    bitField lo width (placeBit lo' b) = 0 :=
  bitField_place_apart _ h

@[simp] theorem place_zero (lo width : Nat) : place lo width 0 = 0 := by
  unfold place
  ext k hk
  simp

end Sys2Proof.Machine
end

