-- ==== Sys2Proof/Tests/Slice0.lean ====
section
/-! SUPPORT. Tests: the checks of `WellFormed`, each refusing an ill-formed command; small tests of single steps,
most of them lines of the manual's worked examples; and for each obligation with premises a concrete state that
meets them. -/

-- One theorem at a time: each evaluates a whole step, and many at once take many threads' stacks.
set_option Elab.async false

namespace Sys2Proof.Tests

open Sys2Proof.Machine

/-! ### Helpers -/

/-- The state after a command. -/
def after (c : Instr) (s : State) : State :=
  match exec c s with
  | .next t => t
  | _ => s

/-- Request words of a kind, with MODE 0 and the operand words. -/
def words (cls kind : Nat) (w2 w3 w4 : Nat) : RequestWords :=
  ⟨BitVec.ofNat 32 (kind + 16 * cls), BitVec.ofNat 32 w2, BitVec.ofNat 32 w3, BitVec.ofNat 32 w4⟩

/-- The request words of a CLAIM. -/
def claimWords (mode first count tag limit : Nat) : RequestWords :=
  ⟨BitVec.ofNat 32 (4 + 256 * mode), BitVec.ofNat 32 first, BitVec.ofNat 32 count,
    BitVec.ofNat 32 (tag + 65536 * limit)⟩

/-- Initiator mailbox `i` BUSY with these request words. -/
def ask (s : State) (i : Initiator) (w : RequestWords) : State :=
  { s with mailboxes := s.mailboxes.set i { s.mailboxes[i] with captured := some w } }

/-- The management mailbox BUSY with these request words, submitted by initiator 0; it is the arbiter's next. -/
def askManager (s : State) (w : RequestWords) : State :=
  { s with
    arbiter := .initiator 7
    submitter := some 0
    mgmt := { s.mgmt with captured := some w } }

/-- The outcome code and bits 31:16 of word 6 of initiator mailbox `i`. -/
def reply (s : State) (i : Initiator) : Nat × Nat :=
  (bitField 0 8 s.mailboxes[i].result[0], bitField 16 16 s.mailboxes[i].result[0])

/-- The same of the management mailbox. -/
def replyM (s : State) : Nat × Nat :=
  (bitField 0 8 s.mgmt.result[0], bitField 16 16 s.mgmt.result[0])

/-- Eight ACTIVE initiators. -/
def boards : Vector InitRecord 8 := Vector.replicate 8 ⟨.active 500, 1, []⟩

/-- Initiator 0 UNREGISTERED, 1 and 2 ACTIVE, 3 LAPSED, the others ABSENT. -/
def mixed : Vector InitRecord 8 :=
  #v[⟨.unregistered, 255, []⟩, ⟨.active 1, 4, []⟩, ⟨.active 300, 1, []⟩, ⟨.lapsed, 2, []⟩,
    ⟨.absent, 0, []⟩, ⟨.absent, 0, []⟩, ⟨.absent, 0, []⟩, ⟨.absent, 0, []⟩]

/-- A directory that is ON over these tables, with one delivered tick at each block. -/
def directory (inits : Vector InitRecord 8) (claims : Claims) (queue : List Waiter)
    (fenceQueue : List Initiator) (flight : FenceFlight) : State :=
  { State.reset with
    dirState := .on
    engineTick := true
    fenceTick := true
    tables := ⟨claims, queue, inits, 10, fenceQueue⟩
    flight := flight }

/-- The state with no tick waiting. -/
def quiet (s : State) : State :=
  { s with engineTick := false, fenceTick := false }

/-- An EXCLUSIVE record over a span, with its first granule as tag. -/
def xrec (phase : Phase) (holder : Initiator) (first count : Nat) : Claim :=
  ⟨phase, holder, .exclusive, ⟨first, count⟩, BitVec.ofNat 16 first, none⟩

/-- A SHARED record over a span, with its first granule as tag. -/
def srec (phase : Phase) (holder : Initiator) (first count : Nat) (upgrade : Option Ticket := none) : Claim :=
  ⟨phase, holder, .shared, ⟨first, count⟩, BitVec.ofNat 16 first, upgrade⟩

/-- The state of the example of chapter 2. -/
def table2 : State :=
  directory boards
    [(0, srec .held 1 100 50), (1, xrec .held 2 200 10), (2, xrec (.drainingOut .issued) 3 300 20)]
    [⟨7, 3, .claim .exclusive, ⟨140, 20⟩, 0x37, none⟩] [] (.timed 3 50)

/-- The state of the example of chapter 3: one fence outcome. -/
def table3 : State :=
  directory boards
    [(0, xrec (.drainingOut .issued) 0 1000 100), (1, srec .held 1 1100 50),
      (2, srec .held 2 1100 30 (some 40))]
    [⟨40, 2, .upgrade 2, ⟨1100, 30⟩, 1100, none⟩, ⟨41, 1, .claim .shared, ⟨1050, 10⟩, 0xB2, some 20⟩,
      ⟨42, 3, .claim .shared, ⟨1060, 10⟩, 0xD3, some 5⟩, ⟨43, 3, .claim .exclusive, ⟨1120, 20⟩, 0xD4, some 1⟩]
    [] (.timed 0 50)

/-- The state of the example of chapter 4: one tick with an expiry and a lapse. -/
def table4 : State :=
  directory
    #v[⟨.unregistered, 0, []⟩, ⟨.active 1, 4, [⟨8, .granted 1, 400⟩]⟩, ⟨.active 300, 1, []⟩,
      ⟨.active 500, 2, []⟩, ⟨.absent, 0, []⟩, ⟨.absent, 0, []⟩, ⟨.absent, 0, []⟩, ⟨.absent, 0, []⟩]
    [(0, srec .held 1 200 20), (1, xrec .held 1 400 10), (2, srec (.drainingDown .issued) 1 500 10),
      (3, srec .held 2 200 30 (some 9)), (4, xrec (.drainingOut .pending) 3 600 20)]
    [⟨9, 2, .upgrade 3, ⟨200, 30⟩, 200, none⟩, ⟨10, 1, .claim .exclusive, ⟨600, 10⟩, 0x104, some 1⟩,
      ⟨11, 3, .claim .shared, ⟨400, 5⟩, 0x302, some 50⟩]
    [3] (.timed 1 50)

/-- The state of the example of chapter 6: verdicts over one table. -/
def table6 : State :=
  { directory mixed
      [(0, srec .held 1 100 100), (1, srec .held 2 150 100), (2, xrec .held 2 300 10),
        (3, srec (.drainingDown .issued) 1 400 10), (4, xrec (.drainingOut .pending) 2 500 20),
        (5, xrec .quarantined 3 600 4)]
      [] [2] (.timed 1 50) with
    config := { State.reset.config with guardLimit := 99999, unclaimedClosed := true } }

/-- The state of the example of chapter 7: a lookup walk. -/
def table7 : State :=
  directory boards
    [(3, srec .held 0 1000 10), (8, srec .held 1 1005 10), (12, xrec (.drainingOut .issued) 4 1100 32),
      (20, xrec .held 2 1500 10), (41, srec .quarantined 5 1900 4), (77, srec .held 1 1990 20)]
    [⟨5, 6, .claim .shared, ⟨1120, 6⟩, 0xF01, none⟩] [] (.timed 4 1)

/-! ### WellFormed: each check refuses an ill-formed command -/

theorem test_wellFormed_submission :
    Instr.wellFormed (.submission 0 .management 1) = true
      ∧ Instr.wellFormed (.submission 0 .management 2) = false := by decide

theorem test_wellFormed_attentionEnableWrite :
    Instr.wellFormed (.attentionEnableWrite 0 .management 0x20) = true
      ∧ Instr.wellFormed (.attentionEnableWrite 0 .management 0x21) = false := by decide

theorem test_wellFormed_flagClear :
    Instr.wellFormed (.flagClear 0 .management 4) = true
      ∧ Instr.wellFormed (.flagClear 0 .management 5) = false
      ∧ Instr.wellFormed (.flagClear 0 .management 0x20) = false := by decide

theorem test_wellFormed_windowWrite :
    Instr.wellFormed (.windowWrite 0 1 0) = true ∧ Instr.wellFormed (.windowWrite 0 0 0) = false
      ∧ Instr.wellFormed (.windowWrite 0 64 0) = false
      ∧ Instr.wellFormed (.windowWrite 0 16 0) = false := by decide

theorem test_wellFormed_configRefusalClear :
    Instr.wellFormed (.configRefusalClear 0 1) = true
      ∧ Instr.wellFormed (.configRefusalClear 0 2) = false := by decide

theorem test_wellFormed_fenceAnswerOtherKind :
    Instr.wellFormed (.fenceAnswerOtherKind 2) = true
      ∧ Instr.wellFormed (.fenceAnswerOtherKind 1) = false := by decide

theorem test_wellFormed_waitExpiry :
    Instr.wellFormed (.waitExpiry 1) = true ∧ Instr.wellFormed (.waitExpiry 0) = false := by decide

/-! ### Requests -/

/-- REGISTER after 255 generations: generation 1. -/
theorem test_register : reply (after .register (ask table6 0 (words 0 1 0 0 0))) 0 = (0, 1) := by
  decide +kernel

theorem test_register_already : reply (after .register (ask table6 1 (words 0 1 0 0 0))) 1 = (3, 4) := by
  decide +kernel

/-- UNREGISTER of initiator 2 in the example of chapter 6: its SHARED record is freed, its EXCLUSIVE record
drains. -/
theorem test_unregister :
    (after .unregister (ask table6 2 (words 0 2 0 0 0))).tables.claims.map
        (fun e => (e.1, e.2.phase))
      = [(0, .held), (2, .drainingOut .pending), (3, .drainingDown .issued), (4, .drainingOut .pending),
        (5, .quarantined)] := by decide +kernel

theorem test_renew :
    (after .renew (ask table6 1 (words 0 3 0 0 0))).tables.inits[1].state = .active 1000 := by
  decide +kernel

/-- First line of the table of chapter 2. -/
theorem test_claim_granted :
    reply (after .claim (ask table2 0 (claimWords 0 120 10 0 0))) 0 = (1, 3) := by decide +kernel

/-- Second line: CONFLICT with the waiter alone. -/
theorem test_claim_conflict :
    reply (after .claim (ask table2 0 (claimWords 0 145 5 0 0))) 0 = (0x17, 0) := by decide +kernel

theorem test_upgrade_badMode : reply (after .upgrade (ask table2 2 (words 0 5 1 0 0))) 2 = (0x1E, 0) := by
  decide +kernel

/-- Eighth line: the UPGRADE passes the CLAIM waiter. -/
theorem test_upgrade_granted :
    let t := after .upgrade (ask table2 1 (words 0 5 0 0 0x640000))
    reply t 1 = (1, 0) ∧ t.tables.claims.get 0 = some (xrec .held 1 100 50) := by decide +kernel

theorem test_downgrade :
    (after .downgrade (ask table2 2 (words 0 6 1 0 0))).tables.claims.get 1
      = some (srec (.drainingDown .pending) 2 200 10) := by decide +kernel

/-- Eleventh line: an EXCLUSIVE record drains. -/
theorem test_release_exclusive :
    let t := after .release (ask table2 2 (words 0 7 1 0 0))
    t.tables.claims.get 1 = some (xrec (.drainingOut .pending) 2 200 10)
      ∧ t.tables.fenceQueue = [2] := by decide +kernel

/-- Last line: the grant pass gives the record just freed to the waiter. -/
theorem test_release_shared :
    let t := after .release (ask table2 1 (words 0 7 0 0 0))
    t.tables.claims.get 0 = some ⟨.held, 3, .exclusive, ⟨140, 20⟩, 0x37, none⟩ ∧ t.tables.queue = []
      ∧ t.tables.inits[3].notices = [⟨7, .granted 0, 0x37⟩] := by decide +kernel

theorem test_cancel :
    let t := after .cancel (ask table3 2 (words 0 8 40 0 0))
    reply t 2 = (0, 0) ∧ t.tables.queue.map (·.ticket) = [41, 42, 43]
      ∧ t.tables.claims.get 2 = some (srec .held 2 1100 30) := by decide +kernel

theorem test_takeNotice :
    let t := after .takeNotice (ask table4 1 (words 0 9 0 0 0))
    reply t 1 = (0, 8) ∧ t.mailboxes[1].result[1] = 0x01900101 ∧ t.tables.inits[1].notices = [] := by
  decide +kernel

/-- The first LOOKUP of the walk of chapter 7: MORE, four summaries, next cursor 21. -/
theorem test_lookup :
    let r := (after .lookup (ask table7 2 (words 0 10 1000 1000 0))).mailboxes[2].result
    r[0] = 0x0A840005 ∧ r[1] = 0x010003E8 ∧ r[9] = 0x140C0803 := by decide +kernel

theorem test_undefinedRequestKind :
    let t := after .undefinedRequestKind (ask table6 1 (words 1 1 0 0 0))
    reply t 1 = (0x13, 0) ∧ t.tables.inits[1].state = .active 1000 := by decide +kernel

theorem test_enable :
    let t := after .enable (askManager { table2 with dirState := .quiescing } (words 1 1 0 0 0))
    replyM t = (0, 0) ∧ t.dirState = .on := by decide +kernel

theorem test_disable :
    let t := after .disable (askManager table4 (words 1 2 0 0 0))
    t.dirState = .off ∧ t.tables.claims = [] ∧ t.tables.queue = [] ∧ t.flight = .idle
      ∧ t.tables.inits[1] = ⟨.unregistered, 4, []⟩ ∧ t.tables.inits[4] = ⟨.absent, 0, []⟩ := by
  decide +kernel

/-- With no other mailbox BUSY the directory is DORMANT at once; with one it is QUIESCING. -/
theorem test_dormant :
    (after .dormant (askManager table2 (words 1 3 0 0 0))).dirState = .dormant
      ∧ (after .dormant (askManager (ask table2 2 (words 0 3 0 0 0)) (words 1 3 0 0 0))).dirState
        = .quiescing := by decide +kernel

theorem test_evict :
    let t := after .evict (askManager table4 (words 1 4 3 0 0))
    t.tables.inits[3].state = .lapsed ∧ t.tables.queue.map (·.ticket) = [9, 10] := by decide +kernel

theorem test_clearQuarantine :
    (after .clearQuarantine (askManager table7 (words 1 5 41 0 0))).tables.claims.get 41 = none := by
  decide +kernel

/-- The CLEAR-CAPTURE of the example of chapter 6. -/
theorem test_clearCapture :
    let t := after .clearCapture (askManager
      { table6 with capture := some ⟨2, 160, .write, .sharedWrite⟩, overflow := true } (words 1 6 0 0 0))
    t.mgmt.result[1] = 0x727 ∧ t.mgmt.result[2] = 0xA0 ∧ t.capture = none ∧ t.overflow = false := by
  decide +kernel

theorem test_inspectClaim :
    let r := (after .inspectClaim (askManager table7 (words 1 7 12 0 0))).mgmt.result
    r[0] = 0x000C0000 ∧ r[1] = 0x42B ∧ r[2] = 1100 ∧ r[3] = 32 := by decide +kernel

theorem test_inspectInitiator :
    let r := (after .inspectInitiator (askManager table4 (words 1 8 1 0 0))).mgmt.result
    r[0] = 0x00040000 ∧ r[1] = 0x421 ∧ r[2] = 1 ∧ r[3] = 0x01010003 := by decide +kernel

theorem test_inspectWaiter :
    let r := (after .inspectWaiter (askManager table3 (words 1 9 0 0 0))).mgmt.result
    r[0] = 0x00280000 ∧ r[1] = 0x02030400 ∧ r[2] = 1100 ∧ r[3] = 30 := by decide +kernel

/-! ### Bus accesses -/

theorem test_submission :
    let t := after (.submission 2 (.initiator 2) 0x61) table2
    t.mailboxes[2].busy = true ∧ t.mailboxes[2].cmpe = true ∧ t.ntfe[2] = true
      ∧ t.busOut = some ⟨false, none⟩ := by decide +kernel

theorem test_submission_wakes :
    (after (.submission 2 (.initiator 2) 1) { table2 with dirState := .dormant }).dirState = .on := by
  decide +kernel

theorem test_attentionEnableWrite :
    let t := after (.attentionEnableWrite 0 .management 0xC020) table2
    t.cape = true ∧ t.qae = true ∧ t.mgmt.cmpe = true ∧ t.mgmt.busy = false := by decide +kernel

theorem test_flagClear :
    let t := after (.flagClear 2 (.initiator 2) 4)
      { table2 with mailboxes := table2.mailboxes.set 2 { Mailbox.reset with done := true, ovr := true } }
    t.mailboxes[2].done = false ∧ t.mailboxes[2].ovr = true := by decide +kernel

/-- Word 1 keeps its named bits alone. -/
theorem test_windowWrite :
    (after (.windowWrite 2 97 0xFFFFFFFF) table2).mailboxes[2].request.w1 = 0x31F := by decide +kernel

theorem test_windowWrite_refused :
    after (.windowWrite 2 81 4) table2 = { table2 with busOut := some ⟨true, none⟩ } := by decide +kernel

theorem test_takeOwnership :
    let t := after (.takeOwnership 0) { table2 with usCount := 0xFFFFFFFF }
    t.ownership = some ⟨0, 1999, false⟩ ∧ t.busOut = some ⟨false, some 0⟩ := by decide +kernel

/-- The tick that waits and the one that falls on the way are taken; the one that falls with the end waits. -/
theorem test_ownershipWindowEnd :
    let t := after .ownershipWindowEnd { table2 with ownership := some ⟨0, 2000, false⟩ }
    t.ownership = none ∧ t.usCount = 2000 ∧ t.engineTick = true ∧ t.countdown = 1000
      ∧ t.tables.inits[0].state = .active 498 ∧ t.flight = .timed 3 48 := by decide +kernel

theorem test_configWrite :
    (after (.configWrite 0 .managerSet 0x82) State.reset).config.managerSet = 0x83
      ∧ (after (.configWrite 0 .claimLimit 257) State.reset).configRefused = true := by decide +kernel

theorem test_configWrite_on :
    let t := after (.configWrite 0 .leaseLength 5) table2
    t.configRefused = true ∧ t.config = table2.config := by decide +kernel

theorem test_configRefusalClear :
    (after (.configRefusalClear 0 1) { table2 with configRefused := true }).configRefused = false := by
  decide +kernel

/-! ### Queries, fences and time -/

/-- Lines 15 and 13 of the example of chapter 6. -/
theorem test_checkQuery :
    let t := after (.checkQuery 2 160 .write) table6
    t.verdictOut = some .fault ∧ t.capture = some ⟨2, 160, .write, .sharedWrite⟩
      ∧ (after (.checkQuery 1 305 .read) t).overflow = true := by decide +kernel

/-- Lines 14, 10, 8, 9, 6, 7, 4, 3, 2, 5, 18 and 16 of the same example. -/
theorem test_checkQuery_verdicts :
    [(1, 160, AccessKind.read), (2, 405, .read), (1, 405, .read), (1, 405, .write), (2, 510, .read),
      (1, 515, .write), (3, 150, .read), (3, 150000, .write), (5, 150000, .read), (0, 601, .read),
      (0, 700, .write), (0, 700, .read)].map
        (fun q => (after (.checkQuery q.1 q.2.1 q.2.2) table6).verdictOut)
      = [some .pass, some .retry, some .pass, some .fault, some .fault, some .retry, some .fault, some .pass,
        some .fault, some .fault, some .fault, some .pass] := by decide +kernel

theorem test_fenceIssue :
    let t := after .fenceIssue { table6 with flight := .idle }
    t.flight = .timed 2 50 ∧ t.tables.fenceQueue = [] ∧ t.finit = 2
      ∧ t.tables.claims.get 4 = some (xrec (.drainingOut .issued) 2 500 20) := by decide +kernel

/-- The first event of the example of chapter 3. -/
theorem test_fenceDone :
    let t := after .fenceDone table3
    t.tables.queue.map (·.ticket) = [40, 43]
      ∧ t.tables.inits[1].notices = [⟨41, .granted 0, 0xB2⟩]
      ∧ t.tables.inits[3].notices = [⟨42, .granted 3, 0xD3⟩] ∧ t.freq = false := by decide +kernel

theorem test_fenceDefer :
    (after .fenceDefer table6).flight = .deferred 1 ∧ (after .fenceDefer table6).freq = true := by
  decide +kernel

theorem test_fenceAnswerOtherKind : after (.fenceAnswerOtherKind 3) table6 = table6 := by decide +kernel

/-- A tick is delivered, and none in DORMANT; the one that waits is taken before. -/
theorem test_tick :
    let t := after .tick (quiet table6)
    t = { table6 with usCount := 1000 } ∧ (after .tick table6).tables.inits[1].state = .lapsed
      ∧ after .tick { quiet table6 with dirState := .dormant }
        = { quiet table6 with dirState := .dormant, usCount := 1000 } := by decide +kernel

/-- In DORMANT no lease lowers and the fence's timer stands still. -/
theorem test_ticks_dormant :
    let s := { table6 with dirState := .dormant }
    after .directoryTick s = s ∧ after .fenceUnitTick s = s ∧ after (.lapse 1) s = s := by decide +kernel

/-- The ticks that wait are taken before the entry into DORMANT. -/
theorem test_dormant_entry :
    let t := after .dormant (askManager table2 (words 1 3 0 0 0))
    t.dirState = .dormant ∧ t.engineTick = false ∧ t.fenceTick = false
      ∧ t.tables.inits[0].state = .active 499 ∧ t.flight = .timed 3 49 := by decide +kernel

/-- The tick of the example of chapter 4. -/
theorem test_directoryTick :
    let t := after .directoryTick table4
    t.tables.claims = [(1, xrec (.drainingOut .pending) 1 400 10),
        (2, srec (.drainingOut .issued) 1 500 10), (3, xrec .held 2 200 30),
        (4, xrec (.drainingOut .pending) 3 600 20)]
      ∧ t.tables.queue = [⟨11, 3, .claim .shared, ⟨400, 5⟩, 0x302, some 49⟩] ∧ t.tables.fenceQueue = [3, 1]
      ∧ t.tables.inits[1] = ⟨.lapsed, 4, []⟩
      ∧ t.tables.inits[2] = ⟨.active 299, 1, [⟨9, .granted 3, 200⟩]⟩ ∧ t.atn 1 = true := by decide +kernel

theorem test_waitExpiry :
    after (.waitExpiry 10) table4 = after .directoryTick table4
      ∧ after (.waitExpiry 11) table4 = table4 := by decide +kernel

theorem test_lapse :
    after (.lapse 1) table4 = after .directoryTick table4 ∧ after (.lapse 2) table4 = table4 := by
  decide +kernel

theorem test_fenceUnitTick : (after .fenceUnitTick table6).flight = .timed 1 49 := by decide +kernel

theorem test_fenceTimerExpiry :
    let t := after .fenceTimerExpiry table7
    t.flight = .idle ∧ t.tables.claims.get 12 = some (xrec .quarantined 4 1100 32) := by decide +kernel

/-! ### RESETn -/

theorem test_resetn :
    after (.resetn 0 false false) { table4 with inReset := true } = State.reset := by decide +kernel

theorem test_resetn_straps :
    let t := after (.resetn 3 true true) table4
    t.dirState = .on ∧ t.straps = ⟨.eight, true, true⟩ ∧ t.config.managerSet = 0xFF
      ∧ t.tables.inits[7].state = .unregistered := by decide +kernel

theorem test_resetnAsserted :
    let t := after .resetnAsserted (ask table6 1 (words 0 3 0 0 0))
    t.inReset = true ∧ t.mailboxes[1].busy = false ∧ t.flight = .idle
      ∧ after .renew t = t := by decide +kernel

/-! ### The step -/

/-- The state after one step. -/
def stepped (s : State) : State :=
  match step s with
  | .next t => t
  | _ => s

theorem test_step_front :
    stepped { table2 with pending := [.fenceDefer, .tick] }
      = { table2 with flight := .deferred 3, pending := [.tick] } := by decide +kernel

theorem test_step_empty :
    stepped State.reset = { State.reset with usCount := 1, countdown := 999 } := by decide +kernel

/-! ### Witnesses: states that meet the premises of each obligation -/

theorem takes {s : State} {m : MailboxId} {k : RequestKind} {w : RequestWords}
    (h : s.inReset = false ∧ s.arbiterChoice = some m ∧ (s.mailbox m).captured = some w
      ∧ requestKind m w.w1 = k ∧ (s.dirState = .off ∨ (s.dirState = .on ∧ k ≠ .dormant)
        ∨ (s.dirState = .quiescing ∧ k = .enable) ∨ ¬s.TickWaits ∨ ∃ i, m ≠ .initiator i ∧ s.mailboxes[i].busy = true)) :
    s.Takes m k w where
  running := h.1
  chosen := h.2.1
  captured := h.2.2.1
  kind := h.2.2.2.1
  prompt he := by
    rcases h.2.2.2.2 with hd | ⟨hd, hk⟩ | ⟨hd, hk⟩ | hn | ⟨i, hi, hb⟩
    · rcases he.1 with he | he <;> rw [hd] at he <;> cases he.1
    · rcases he.1 with he | he
      · rw [hd] at he
        cases he.1
      · exact absurd he.2 hk
    · rcases he.1 with he | he
      · exact absurd hk he.2.1
      · rw [hd] at he
        cases he.1
    · exact hn
    · have := he.2 (.initiator i) (Ne.symm hi)
      rw [State.mailbox, hb] at this
      cases this

theorem takesActive {s : State} {i : Initiator} {k : RequestKind} {w : RequestWords}
    (h : s.inReset = false ∧ s.arbiterChoice = some (.initiator i)
      ∧ (s.mailbox (.initiator i)).captured = some w ∧ requestKind (.initiator i) w.w1 = k
      ∧ (s.dirState = .on ∧ k ≠ .dormant) ∧ s.tables.inits[i].state.isActive = true) : s.TakesActive i k w :=
  ⟨takes ⟨h.1, h.2.1, h.2.2.1, h.2.2.2.1, Or.inr (Or.inl h.2.2.2.2.1)⟩, by rw [h.2.2.2.2.1.1]; exact nofun,
    h.2.2.2.2.2⟩

theorem atStep4 {s : State} {i : Initiator} {w : RequestWords} {mode : Mode}
    (h : modeOperand w = some mode ∧ (claimSpan w).Legal s.config.guardLimit
      ∧ ¬OverlapsOwn s.tables i (claimSpan w) ∧ claimCount s.tables i < s.config.claimLimit) :
    ClaimAtStep4 s i w mode :=
  ⟨h.1, h.2.1, h.2.2.1, h.2.2.2⟩

theorem namesHeld {claims : Claims} {i : Initiator} {w : RequestWords} {n : ClaimNo} {c : Claim} {mode : Mode}
    (h : Names w n ∧ claims.get n = some c ∧ c.holder = i ∧ c.phase = .held ∧ c.mode = mode) :
    NamesHeld claims i w n c mode :=
  ⟨h.1, h.2.1, h.2.2.1, h.2.2.2.1, h.2.2.2.2⟩

theorem namesDraining {claims : Claims} {i : Initiator} {w : RequestWords} {n : ClaimNo} {c : Claim}
    {stage : Stage}
    (h : Names w n ∧ claims.get n = some c ∧ c.holder = i ∧ c.phase = .drainingDown stage) :
    NamesDraining claims i w n c stage :=
  ⟨h.1, h.2.1, h.2.2.1, h.2.2.2⟩

theorem twoRuns {queue ups cls : List Waiter}
    (h : queue = ups ++ cls ∧ (∀ v ∈ ups, v.isUpgrade = true) ∧ ∀ v ∈ cls, v.isClaim = true) :
    TwoRuns queue ups cls :=
  ⟨h.1, h.2.1, h.2.2⟩

/-- Pairs that all rise in a rank close no cycle. -/
theorem noCycle {claims : Claims} {queue : List Waiter} (rank : Initiator → Nat)
    (h : ∀ p ∈ waitPairs claims queue, rank p.1 < rank p.2) :
    ¬∃ a, Relation.TransGen (WaitsFor claims queue) a a := by
  have key : ∀ a b, Relation.TransGen (WaitsFor claims queue) a b → rank a < rank b := by
    intro a b hab
    induction hab with
    | single hw => exact h _ (mem_waitPairs.mpr hw)
    | tail _ hw ih => exact ih.trans (h _ (mem_waitPairs.mpr hw))
  rintro ⟨a, ha⟩
  exact absurd (key a a ha) (Nat.lt_irrefl _)

/-- Two pairs, one each way, close one. -/
theorem twoCycle {claims : Claims} {queue : List Waiter} (a b : Initiator)
    (h : (a, b) ∈ waitPairs claims queue ∧ (b, a) ∈ waitPairs claims queue) :
    ∃ a, Relation.TransGen (WaitsFor claims queue) a a :=
  ⟨a, .tail (.single (mem_waitPairs.mp h.1)) (mem_waitPairs.mp h.2)⟩

/-- Every record HELD SHARED by initiator 7, each over a granule of its own. -/
def fullClaims : Claims :=
  (List.finRange 256).map fun n => (n, srec .held 7 (10 * n.val) 1)

/-- A queue of `n` waiters of initiator `i`, each over one granule of record 1. -/
def waiters (n : Nat) (i : Initiator) : List Waiter :=
  (List.range n).map fun k =>
    ⟨BitVec.ofNat 16 (100 + k), i, .claim .shared, ⟨200 + k % 10, 1⟩, 0, none⟩

theorem witness_StepRunsFrontCommand :
    ({ table2 with pending := [.tick, .fenceIssue] } : State).pending = .tick :: [.fenceIssue] := rfl

theorem witness_EveryCommandAnswersAndFewMoveTheSlowState :
    (∀ p a m, Instr.tick ≠ .resetn p a m) ∧ Instr.tick ≠ .register ∧ Instr.tick ≠ .claim
      ∧ Instr.tick ≠ .upgrade ∧ (∀ who addr data, Instr.tick ≠ .windowWrite who addr data)
      ∧ ∀ who reg data, Instr.tick ≠ .configWrite who reg data := by
  refine ⟨?_, ?_, ?_, ?_, ?_, ?_⟩ <;> intros <;> exact nofun

theorem witness_LowResetAbandonsWorkAndTakesNoEvent :
    (∃ (c : Instr) (s t : State), s.inReset = true ∧ (∀ p a m, c ≠ .resetn p a m) ∧ c ≠ .resetnAsserted
      ∧ exec c s = .next t)
    ∧ ({ table2 with inReset := true } : State).inReset = true :=
  ⟨⟨.tick, { table2 with inReset := true }, _, rfl, nofun, nofun, rfl⟩, rfl⟩

/-- The three lines of the gate that refuse. -/
theorem witness_GateRefusesInitiatorRequests :
    (∃ s i w, (RequestKind.register, Instr.register) ∈ initiatorCommands ∧ s.Takes (.initiator i) .register w
      ∧ GateRefusal s i .register .off)
    ∧ (∃ s i w, (RequestKind.claim, Instr.claim) ∈ initiatorCommands ∧ s.Takes (.initiator i) .claim w
      ∧ GateRefusal s i .claim .lapsed)
    ∧ ∃ s i w, (RequestKind.renew, Instr.renew) ∈ initiatorCommands ∧ s.Takes (.initiator i) .renew w
      ∧ GateRefusal s i .renew .notRegistered :=
  ⟨⟨ask { table6 with dirState := .off } 0 (words 0 1 0 0 0), 0, words 0 1 0 0 0, by decide,
      takes (by decide +kernel), .off rfl⟩,
    ⟨ask table6 3 (claimWords 0 0 1 0 0), 3, claimWords 0 0 1 0 0, by decide, takes (by decide +kernel),
      .lapsed nofun rfl nofun⟩,
    ⟨ask table6 0 (words 0 3 0 0 0), 0, words 0 3 0 0 0, by decide, takes (by decide +kernel),
      .unregistered nofun rfl nofun nofun⟩⟩

theorem witness_UndefinedKindIsBadRequest :
    (∃ s i w, State.Takes s (.initiator i) .undefined w) ∧ ∃ s w, State.Takes s .management .undefined w :=
  ⟨⟨ask table6 1 (words 0 11 0 0 0), 1, words 0 11 0 0 0, takes (by decide +kernel)⟩,
    ⟨askManager table6 (words 1 10 0 0 0), words 1 10 0 0 0, takes (by decide +kernel)⟩⟩

theorem witness_EveryRequestRestartsTheLease :
    ∃ s i w, (RequestKind.lookup, Instr.lookup) ∈ initiatorCommands ∧ State.TakesActive s i .lookup w :=
  ⟨ask table6 1 (words 0 10 0 1 0), 1, words 0 10 0 1 0, by decide, takesActive (by decide +kernel)⟩

/-- UNREGISTERED with generation 255, LAPSED, and ACTIVE. -/
theorem witness_RegisterStartsOrKeepsARegistration :
    (∃ s i w, State.Takes s (.initiator i) .register w ∧ s.dirState ≠ .off
      ∧ s.tables.inits[i].state = .unregistered ∧ s.tables.inits[i].generation = 255)
    ∧ (∃ s i w, State.Takes s (.initiator i) .register w ∧ s.dirState ≠ .off
      ∧ s.tables.inits[i].state = .lapsed ∧ s.tables.inits[i].generation ≠ 255)
    ∧ ∃ s i w, State.TakesActive s i .register w :=
  ⟨⟨ask table6 0 (words 0 1 0 0 0), 0, words 0 1 0 0 0, takes (by decide +kernel), nofun, rfl, rfl⟩,
    ⟨ask table6 3 (words 0 1 0 0 0), 3, words 0 1 0 0 0, takes (by decide +kernel), nofun, rfl,
      by decide +kernel⟩,
    ⟨ask table6 1 (words 0 1 0 0 0), 1, words 0 1 0 0 0, takesActive (by decide +kernel)⟩⟩

theorem witness_RenewRestartsTheLeaseAlone :
    (∃ s i w, State.TakesActive s i .renew w)
      ∧ ∃ s i w, State.Takes s (.initiator i) .renew w ∧ GateRefusal s i .renew .lapsed :=
  ⟨⟨ask table6 1 (words 0 3 0 0 0), 1, words 0 3 0 0 0, takesActive (by decide +kernel)⟩,
    ⟨ask table6 3 (words 0 3 0 0 0), 3, words 0 3 0 0 0, takes (by decide +kernel), .lapsed nofun rfl nofun⟩⟩

/-- UNREGISTER with and without a stake; EVICT in OFF, of 8, of a LAPSED and of an ACTIVE initiator. -/
theorem witness_UnregisterAndEvictDisposeOfEverything :
    (∃ s i w, s.tables.claims.Sorted ∧ State.TakesActive s i .unregister w ∧ HasStake s.tables i)
    ∧ (∃ s i w, s.tables.claims.Sorted ∧ State.TakesActive s i .unregister w ∧ ¬HasStake s.tables i)
    ∧ (∃ s w, State.Takes s .management .evict w ∧ s.dirState = .off)
    ∧ (∃ s w, State.Takes s .management .evict w ∧ s.dirState ≠ .off ∧ w.w2.toNat = 8)
    ∧ (∃ s w, ∃ i : Initiator, State.Takes s .management .evict w ∧ s.dirState ≠ .off ∧ w.w2.toNat = i.val
      ∧ s.tables.inits[i].state.isActive = false)
    ∧ (∃ s w, ∃ i : Initiator, State.Takes s .management .evict w ∧ s.dirState ≠ .off ∧ w.w2.toNat = i.val
      ∧ s.tables.inits[i].state.isActive = true ∧ s.tables.claims.Sorted ∧ HasStake s.tables i)
    ∧ ∃ s w, ∃ i : Initiator, State.Takes s .management .evict w ∧ s.dirState ≠ .off ∧ w.w2.toNat = i.val
      ∧ s.tables.inits[i].state.isActive = true ∧ s.tables.claims.Sorted ∧ ¬HasStake s.tables i :=
  ⟨⟨ask table2 1 (words 0 2 0 0 0), 1, words 0 2 0 0 0, by decide +kernel, takesActive (by decide +kernel),
      by decide +kernel⟩,
    ⟨ask table2 0 (words 0 2 0 0 0), 0, words 0 2 0 0 0, by decide +kernel, takesActive (by decide +kernel),
      by decide +kernel⟩,
    ⟨askManager State.reset (words 1 4 0 0 0), words 1 4 0 0 0, takes (by decide +kernel), rfl⟩,
    ⟨askManager table6 (words 1 4 8 0 0), words 1 4 8 0 0, takes (by decide +kernel), nofun, by decide⟩,
    ⟨askManager table6 (words 1 4 7 0 0), words 1 4 7 0 0, 7, takes (by decide +kernel), nofun, by decide,
      by decide +kernel⟩,
    ⟨askManager table2 (words 1 4 3 0 0), words 1 4 3 0 0, 3, takes (by decide +kernel), nofun, by decide,
      by decide +kernel, by decide +kernel, by decide +kernel⟩,
    ⟨askManager table2 (words 1 4 0 0 0), words 1 4 0 0 0, 0, takes (by decide +kernel), nofun, by decide,
      by decide +kernel, by decide +kernel, by decide +kernel⟩⟩

/-- The first line of the table of chapter 2. -/
theorem witness_ClaimGrantedAtOnceTakesTheLowestFreeRecord :
    ∃ s i w mode n, State.TakesActive s i .claim w ∧ ClaimAtStep4 s i w mode
      ∧ ¬Contends s.tables.claims s.tables.queue none mode (claimSpan w) ∧ s.tables.claims.Lowest n :=
  ⟨ask table2 0 (claimWords 0 120 10 0 0), 0, claimWords 0 120 10 0 0, .shared, 3,
    takesActive (by decide +kernel), atStep4 (by decide +kernel), by decide +kernel, by decide +kernel⟩

/-- MODE 2; the guard limit passed by one granule; the requester's DRAINING_OUT record; the claim limit reached;
a waiter alone in the way at wait limit 0. -/
theorem witness_ClaimRefusals_form_to_conflict :
    (∃ s i w, State.TakesActive s i .claim w ∧ ClaimRefusal s i w .badRequest)
    ∧ (∃ s i w, State.TakesActive s i .claim w ∧ ClaimRefusal s i w .range)
    ∧ (∃ s i w, State.TakesActive s i .claim w ∧ ClaimRefusal s i w .selfOverlap)
    ∧ (∃ s i w, State.TakesActive s i .claim w ∧ ClaimRefusal s i w .limit)
    ∧ ∃ s i w, State.TakesActive s i .claim w ∧ ClaimRefusal s i w .conflict :=
  ⟨⟨ask table2 0 (claimWords 2 0 1 0 0), 0, claimWords 2 0 1 0 0, takesActive (by decide +kernel),
      .form (by decide)⟩,
    ⟨ask table2 0 (claimWords 0 1048575 2 0 0), 0, claimWords 0 1048575 2 0 0, takesActive (by decide +kernel),
      .range (by decide) (by decide +kernel)⟩,
    ⟨ask table2 3 (claimWords 0 319 1 0 0), 3, claimWords 0 319 1 0 0, takesActive (by decide +kernel),
      .selfOverlap (by decide) (by decide +kernel) (by decide +kernel)⟩,
    ⟨ask { table2 with config := { table2.config with claimLimit := 1 } } 1 (claimWords 0 900 1 0 0), 1,
      claimWords 0 900 1 0 0, takesActive (by decide +kernel),
      .limit (by decide) (by decide +kernel) (by decide +kernel) (by decide +kernel)⟩,
    ⟨ask table2 0 (claimWords 0 145 5 0 0), 0, claimWords 0 145 5 0 0, takesActive (by decide +kernel),
      .conflict .shared (atStep4 (by decide +kernel)) (by decide) (by decide +kernel)⟩⟩

/-- The table full; the queue full; eight open tickets; a cycle with the waiter of the record in the way. -/
theorem witness_ClaimRefusalsFollowTheOrderOfChecks :
    (∃ s i w, State.TakesActive s i .claim w ∧ ClaimRefusal s i w .tableFull)
    ∧ (∃ s i w, State.TakesActive s i .claim w ∧ ClaimRefusal s i w .queueFull)
    ∧ (∃ s i w, State.TakesActive s i .claim w ∧ ClaimRefusal s i w .tickets)
    ∧ ∃ s i w, State.TakesActive s i .claim w ∧ ClaimRefusal s i w .deadlock :=
  ⟨⟨ask (directory boards fullClaims [] [] .idle) 0 (claimWords 0 5 1 0 0), 0, claimWords 0 5 1 0 0,
      takesActive (by decide +kernel),
      .tableFull .shared (atStep4 (by decide +kernel)) (by decide) (by decide +kernel) (by decide +kernel)⟩,
    ⟨ask (directory boards table2.tables.claims (waiters 64 5) [] .idle) 0 (claimWords 0 200 1 0 1), 0,
      claimWords 0 200 1 0 1, takesActive (by decide +kernel),
      .queueFull .shared (atStep4 (by decide +kernel)) (by decide) (by decide +kernel) (by decide +kernel)⟩,
    ⟨ask (directory boards table2.tables.claims (waiters 8 5) [] .idle) 5 (claimWords 0 300 1 0 1), 5,
      claimWords 0 300 1 0 1, takesActive (by decide +kernel),
      .tickets .shared (atStep4 (by decide +kernel)) (by decide) (by decide +kernel) (by decide +kernel)
        (by decide +kernel)⟩,
    ⟨ask table2 1 (claimWords 0 159 1 0 1), 1, claimWords 0 159 1 0 1, takesActive (by decide +kernel),
      .deadlock .shared 10 (atStep4 (by decide +kernel)) (by decide) (by decide +kernel) (by decide +kernel)
        (by decide +kernel) (twoCycle 1 3 (by decide +kernel))⟩⟩

theorem witness_ClaimQueuedJoinsTheTail :
    ∃ s i w mode, State.TakesActive s i .claim w ∧ ClaimAtStep4 s i w mode
      ∧ ClaimNotGrantable s.tables w mode ∧ waitLimit w ≠ 0 ∧ s.tables.queue.length < 64
      ∧ openTicketCount s.tables i < 8
      ∧ ¬∃ a, Relation.TransGen (WaitsFor s.tables.claims
          (s.tables.queue ++ [claimEntry i w mode (issuedTicket s.tables)])) a a :=
  ⟨ask table2 0 (claimWords 1 200 1 0 65535), 0, claimWords 1 200 1 0 65535, .exclusive,
    takesActive (by decide +kernel), atStep4 (by decide +kernel), by decide +kernel, by decide,
    by decide +kernel, by decide +kernel, noCycle (fun i => if i = 1 ∨ i = 2 then 1 else 0) (by decide +kernel)⟩

theorem witness_IssuedTicketIsTheFirstClosedNumber :
    table3.tables.CapacityLaw ∧ table3.tables.ticketCounter ≠ 0 :=
  ⟨⟨by decide +kernel, by decide +kernel⟩, by decide⟩

/-- Two SHARED records that overlap (sequence 2 of chapter 10), the first with an upgrade ticket or not. -/
def sharers (up : Option Ticket) : Claims :=
  [(4, srec .held 1 3000 50 up), (5, srec .held 3 3040 60)]

/-- The state of the case of R63: an UPGRADE by 0 of record 0 would be granted and close a cycle. -/
def upgradeCycle : State :=
  directory boards [(0, srec .held 0 100 10), (1, xrec .held 2 500 10), (2, xrec .held 3 110 10)]
    [⟨20, 0, .claim .shared, ⟨500, 10⟩, 0, none⟩, ⟨21, 2, .claim .shared, ⟨100, 20⟩, 0, none⟩] [] .idle

theorem witness_UpgradeGrantedAtOnceMakesTheRecordExclusive :
    ∃ s i w n c ups cls, State.TakesActive s i .upgrade w ∧ TwoRuns s.tables.queue ups cls
      ∧ NamesHeld s.tables.claims i w n c .shared ∧ c.upgradeTicket = none
      ∧ ¬Contends s.tables.claims ups (some n) .exclusive c.span
      ∧ ¬∃ a, Relation.TransGen (WaitsFor (upgradedClaims s.tables.claims n c) s.tables.queue) a a :=
  ⟨ask table2 1 (words 0 5 0 0 0), 1, words 0 5 0 0 0, 0, srec .held 1 100 50, [], table2.tables.queue,
    takesActive (by decide +kernel), twoRuns (by decide +kernel), namesHeld (by decide +kernel), rfl,
    by decide +kernel, noCycle (fun i => if i = 1 then 1 else 0) (by decide +kernel)⟩

/-- An operand of 256; a FREE record, another's, the requester's DRAINING_OUT one; the requester's QUARANTINED
one. -/
theorem witness_NameRefusal :
    NameRefusal table6.tables.claims 2 (words 0 5 256 0 0) .badRequest
    ∧ NameRefusal table6.tables.claims 2 (words 0 5 255 0 0) .notHolder
    ∧ NameRefusal table6.tables.claims 2 (words 0 5 0 0 0) .notHolder
    ∧ NameRefusal table6.tables.claims 2 (words 0 5 4 0 0) .notHolder
    ∧ NameRefusal table6.tables.claims 3 (words 0 5 5 0 0) .quarantined :=
  ⟨.form (by decide), .notHolder 255 (by decide) (.free (by decide +kernel)),
    .notHolder 0 (by decide) (.other _ rfl (by decide)),
    .notHolder 4 (by decide) (.out _ .pending rfl rfl rfl), .quarantined 5 (by decide) _ rfl rfl rfl⟩

/-- The refusals by the record named. -/
theorem witness_UpgradeRefusals_by_record :
    (∃ s i w ups cls, State.TakesActive s i .upgrade w ∧ TwoRuns s.tables.queue ups cls
      ∧ UpgradeRefusal s.tables i w ups cls .badRequest)
    ∧ (∃ s i w ups cls, State.TakesActive s i .upgrade w ∧ TwoRuns s.tables.queue ups cls
      ∧ UpgradeRefusal s.tables i w ups cls .badMode)
    ∧ (∃ s i w ups cls, State.TakesActive s i .upgrade w ∧ TwoRuns s.tables.queue ups cls
      ∧ ∃ n c stage, NamesDraining s.tables.claims i w n c stage
        ∧ UpgradeRefusal s.tables i w ups cls .badPhase)
    ∧ ∃ s i w ups cls, State.TakesActive s i .upgrade w ∧ TwoRuns s.tables.queue ups cls
      ∧ ∃ n c, NamesHeld s.tables.claims i w n c .shared ∧ UpgradeRefusal s.tables i w ups cls .badPhase :=
  ⟨⟨ask table2 1 (words 0 5 256 0 0), 1, words 0 5 256 0 0, [], table2.tables.queue,
      takesActive (by decide +kernel), twoRuns (by decide +kernel), .name _ (.form (by decide))⟩,
    ⟨ask table2 2 (words 0 5 1 0 0), 2, words 0 5 1 0 0, [], table2.tables.queue,
      takesActive (by decide +kernel), twoRuns (by decide +kernel),
      .exclusive 1 (xrec .held 2 200 10) (namesHeld (by decide +kernel))⟩,
    ⟨ask table6 1 (words 0 5 3 0 0), 1, words 0 5 3 0 0, [], [], takesActive (by decide +kernel),
      twoRuns (by decide +kernel), 3, srec (.drainingDown .issued) 1 400 10, .issued,
      namesDraining (by decide +kernel),
      .draining 3 (srec (.drainingDown .issued) 1 400 10) .issued (namesDraining (by decide +kernel))⟩,
    ⟨ask table3 2 (words 0 5 2 0 0), 2, words 0 5 2 0 0, table3.tables.queue.take 1,
      table3.tables.queue.drop 1, takesActive (by decide +kernel), twoRuns (by decide +kernel), 2,
      srec .held 2 1100 30 (some 40), namesHeld (by decide +kernel),
      .ticket 2 (srec .held 2 1100 30 (some 40)) 40 (namesHeld (by decide +kernel)) rfl⟩⟩

/-- The refusals at step 5 of R35: the cycle of R63, CONFLICT, and the three of the wait queue. -/
theorem witness_UpgradeRefusalsFollowTheNamedRecord :
    (∃ s i w ups cls, State.TakesActive s i .upgrade w ∧ TwoRuns s.tables.queue ups cls
      ∧ waitLimit w = 0 ∧ UpgradeRefusal s.tables i w ups cls .deadlock)
    ∧ (∃ s i w ups cls, State.TakesActive s i .upgrade w ∧ TwoRuns s.tables.queue ups cls
      ∧ UpgradeRefusal s.tables i w ups cls .conflict)
    ∧ (∃ s i w ups cls, State.TakesActive s i .upgrade w ∧ TwoRuns s.tables.queue ups cls
      ∧ UpgradeRefusal s.tables i w ups cls .queueFull)
    ∧ (∃ s i w ups cls, State.TakesActive s i .upgrade w ∧ TwoRuns s.tables.queue ups cls
      ∧ UpgradeRefusal s.tables i w ups cls .tickets)
    ∧ ∃ s i w ups cls, State.TakesActive s i .upgrade w ∧ TwoRuns s.tables.queue ups cls
      ∧ waitLimit w ≠ 0 ∧ UpgradeRefusal s.tables i w ups cls .deadlock :=
  ⟨⟨ask upgradeCycle 0 (words 0 5 0 0 0), 0, words 0 5 0 0 0, [], upgradeCycle.tables.queue,
      takesActive (by decide +kernel), twoRuns (by decide +kernel), by decide,
      .cycle 0 (srec .held 0 100 10) (namesHeld (by decide +kernel)) rfl (by decide +kernel)
        (twoCycle 0 2 (by decide +kernel))⟩,
    ⟨ask (directory boards (sharers none) [] [] .idle) 3 (words 0 5 5 0 0), 3, words 0 5 5 0 0, [], [],
      takesActive (by decide +kernel), twoRuns (by decide +kernel),
      .conflict 5 (srec .held 3 3040 60) (namesHeld (by decide +kernel)) rfl (by decide +kernel) (by decide)⟩,
    ⟨ask (directory boards (sharers none) (waiters 64 6) [] .idle) 3 (words 0 5 5 0 0x10000), 3,
      words 0 5 5 0 0x10000, [], waiters 64 6, takesActive (by decide +kernel), twoRuns (by decide +kernel),
      .queueFull 5 (srec .held 3 3040 60) (namesHeld (by decide +kernel)) rfl (by decide +kernel) (by decide)
        (by decide +kernel)⟩,
    ⟨ask (directory boards (sharers none) (waiters 8 3) [] .idle) 3 (words 0 5 5 0 0x10000), 3,
      words 0 5 5 0 0x10000, [], waiters 8 3, takesActive (by decide +kernel), twoRuns (by decide +kernel),
      .tickets 5 (srec .held 3 3040 60) (namesHeld (by decide +kernel)) rfl (by decide +kernel) (by decide)
        (by decide +kernel) (by decide +kernel)⟩,
    ⟨ask (directory boards (sharers (some 17)) [⟨17, 1, .upgrade 4, ⟨3000, 50⟩, 3000, some 500⟩] [] .idle) 3
        (words 0 5 5 0 0x1F40000), 3, words 0 5 5 0 0x1F40000,
      [⟨17, 1, .upgrade 4, ⟨3000, 50⟩, 3000, some 500⟩], [], takesActive (by decide +kernel),
      twoRuns (by decide +kernel), by decide,
      .deadlock 5 (srec .held 3 3040 60) 18 (namesHeld (by decide +kernel)) rfl (by decide +kernel) (by decide)
        (by decide +kernel) (by decide +kernel) (twoCycle 1 3 (by decide +kernel))⟩⟩

theorem witness_UpgradeQueuedJoinsTheUpgradeRun :
    ∃ s i w n c ups cls, State.TakesActive s i .upgrade w ∧ TwoRuns s.tables.queue ups cls
      ∧ NamesHeld s.tables.claims i w n c .shared ∧ c.upgradeTicket = none
      ∧ Contends s.tables.claims ups (some n) .exclusive c.span ∧ waitLimit w ≠ 0
      ∧ s.tables.queue.length < 64 ∧ openTicketCount s.tables i < 8
      ∧ ¬∃ a, Relation.TransGen (WaitsFor s.tables.claims
          (ups ++ upgradeEntry i w n c (issuedTicket s.tables) :: cls)) a a :=
  ⟨ask (directory boards (sharers none) [] [] .idle) 1 (words 0 5 4 0 0xFFFF0000), 1, words 0 5 4 0 0xFFFF0000,
    4, srec .held 1 3000 50, [], [], takesActive (by decide +kernel), twoRuns (by decide +kernel),
    namesHeld (by decide +kernel), rfl, by decide +kernel, by decide, by decide +kernel, by decide +kernel,
    noCycle (fun i => if i = 3 then 1 else 0) (by decide +kernel)⟩

theorem witness_DowngradeStartsADrainOrIsRefused :
    (∃ s i w n c, State.TakesActive s i .downgrade w ∧ NamesHeld s.tables.claims i w n c .exclusive)
    ∧ (∃ s i w, State.TakesActive s i .downgrade w ∧ NameRefusal s.tables.claims i w .notHolder)
    ∧ (∃ s i w n c, State.TakesActive s i .downgrade w ∧ NamesHeld s.tables.claims i w n c .shared)
    ∧ ∃ s i w n c stage, State.TakesActive s i .downgrade w
      ∧ NamesDraining s.tables.claims i w n c stage :=
  ⟨⟨ask table6 2 (words 0 6 2 0 0), 2, words 0 6 2 0 0, 2, xrec .held 2 300 10, takesActive (by decide +kernel),
      namesHeld (by decide +kernel)⟩,
    ⟨ask table6 2 (words 0 6 255 0 0), 2, words 0 6 255 0 0, takesActive (by decide +kernel),
      .notHolder 255 (by decide) (.free (by decide +kernel))⟩,
    ⟨ask table6 2 (words 0 6 1 0 0), 2, words 0 6 1 0 0, 1, srec .held 2 150 100, takesActive (by decide +kernel),
      namesHeld (by decide +kernel)⟩,
    ⟨ask table6 1 (words 0 6 3 0 0), 1, words 0 6 3 0 0, 3, srec (.drainingDown .issued) 1 400 10, .issued,
      takesActive (by decide +kernel), namesDraining (by decide +kernel)⟩⟩

theorem witness_ReleaseDrainsAnExclusiveRecordOrIsRefused :
    (∃ s i w n c, State.TakesActive s i .release w ∧ NamesHeld s.tables.claims i w n c .exclusive)
    ∧ (∃ s i w n c stage, State.TakesActive s i .release w ∧ NamesDraining s.tables.claims i w n c stage)
    ∧ ∃ s i w, State.TakesActive s i .release w ∧ NameRefusal s.tables.claims i w .badRequest :=
  ⟨⟨ask table6 2 (words 0 7 2 0 0), 2, words 0 7 2 0 0, 2, xrec .held 2 300 10, takesActive (by decide +kernel),
      namesHeld (by decide +kernel)⟩,
    ⟨ask table6 1 (words 0 7 3 0 0), 1, words 0 7 3 0 0, 3, srec (.drainingDown .issued) 1 400 10, .issued,
      takesActive (by decide +kernel), namesDraining (by decide +kernel)⟩,
    ⟨ask table6 2 (words 0 7 256 0 0), 2, words 0 7 256 0 0, takesActive (by decide +kernel),
      .form (by decide)⟩⟩

/-- Without an upgrade ticket and with one. -/
theorem witness_ReleaseOfASharedRecordFreesIt :
    (∃ s i w n c, State.TakesActive s i .release w ∧ NamesHeld s.tables.claims i w n c .shared
      ∧ c.upgradeTicket = none)
    ∧ ∃ s i w n c, State.TakesActive s i .release w ∧ NamesHeld s.tables.claims i w n c .shared
      ∧ c.upgradeTicket = some 40 :=
  ⟨⟨ask table2 1 (words 0 7 0 0 0), 1, words 0 7 0 0 0, 0, srec .held 1 100 50, takesActive (by decide +kernel),
      namesHeld (by decide +kernel), rfl⟩,
    ⟨ask table3 2 (words 0 7 2 0 0), 2, words 0 7 2 0 0, 2, srec .held 2 1100 30 (some 40),
      takesActive (by decide +kernel), namesHeld (by decide +kernel), rfl⟩⟩

/-- A waiter of the requester's; the ticket 0; a ticket of another's waiter; 65,535 and 65,536. -/
theorem witness_CancelRemovesTheWaiter :
    (∃ s i w before after v, State.TakesActive s i .cancel w ∧ s.tables.queue = before ++ v :: after
      ∧ v.initiator = i ∧ v.ticket ≠ 0 ∧ v.ticket.toNat = w.w2.toNat
      ∧ ∀ x ∈ before ++ after, x.ticket ≠ v.ticket)
    ∧ (∃ s i w, State.TakesActive s i .cancel w ∧ w.w2.toNat = 0)
    ∧ (∃ s i w, State.TakesActive s i .cancel w ∧ w.w2.toNat = 65535
      ∧ ∀ v ∈ s.tables.queue, v.initiator = i → v.ticket.toNat ≠ w.w2.toNat)
    ∧ ∃ s i w, State.TakesActive s i .cancel w ∧ w.w2.toNat = 65536 :=
  ⟨⟨ask table3 1 (words 0 8 41 0 0), 1, words 0 8 41 0 0, table3.tables.queue.take 1,
      table3.tables.queue.drop 2, ⟨41, 1, .claim .shared, ⟨1050, 10⟩, 0xB2, some 20⟩,
      takesActive (by decide +kernel), rfl, rfl, by decide, by decide, by decide +kernel⟩,
    ⟨ask table3 1 (words 0 8 0 0 0), 1, words 0 8 0 0 0, takesActive (by decide +kernel), by decide⟩,
    ⟨ask table3 1 (words 0 8 65535 0 0), 1, words 0 8 65535 0 0, takesActive (by decide +kernel), by decide,
      by decide +kernel⟩,
    ⟨ask table3 1 (words 0 8 65536 0 0), 1, words 0 8 65536 0 0, takesActive (by decide +kernel), by decide⟩⟩

theorem witness_TakeNoticeReturnsTheOldest :
    (∃ s i w, State.TakesActive s i .takeNotice w ∧ s.tables.inits[i].notices = [])
    ∧ ∃ s i w n rest, State.TakesActive s i .takeNotice w ∧ s.tables.inits[i].notices = n :: rest :=
  ⟨⟨ask table4 2 (words 0 9 0 0 0), 2, words 0 9 0 0 0, takesActive (by decide +kernel), rfl⟩,
    ⟨ask table4 1 (words 0 9 0 0 0), 1, words 0 9 0 0 0, ⟨8, .granted 1, 400⟩, [],
      takesActive (by decide +kernel), rfl⟩⟩

/-- A CLAIM and an UPGRADE that nothing blocks, one blocked by a record, one by a full table. -/
theorem witness_GrantPassJudgesWaitersInQueueOrder :
    (∀ v ∈ table3.tables.queue, ∀ n, v.ownRecord = some n → ¬table3.tables.claims.IsFree n)
    ∧ (∃ tb v, Tables.queue tb = [v] ∧ v.kind = .claim .shared ∧ ¬Contends tb.claims [] none .shared v.span
      ∧ tb.claims.Lowest 0)
    ∧ (∃ tb v c, Tables.queue tb = [v] ∧ v.kind = .upgrade 2 ∧ tb.claims.get 2 = some c
      ∧ ¬Contends tb.claims [] (some 2) .exclusive v.span)
    ∧ (∃ tb v, Tables.queue tb = [v] ∧ Contends tb.claims [] v.ownRecord v.mode v.span)
    ∧ ∃ tb v, Tables.queue tb = [v] ∧ v.isClaim = true ∧ tb.claims.Full :=
  ⟨by decide +kernel, ⟨⟨[], [⟨5, 6, .claim .shared, ⟨0, 1⟩, 0, none⟩], boards, 9, []⟩, ⟨5, 6, .claim .shared, ⟨0, 1⟩, 0, none⟩,
      rfl, rfl, by decide +kernel, by decide +kernel⟩,
    ⟨⟨[(2, srec .held 6 0 1 (some 5))], [⟨5, 6, .upgrade 2, ⟨0, 1⟩, 0, none⟩], boards, 9, []⟩,
      ⟨5, 6, .upgrade 2, ⟨0, 1⟩, 0, none⟩, srec .held 6 0 1 (some 5), rfl, rfl, rfl, by decide +kernel⟩,
    ⟨table2.tables, ⟨7, 3, .claim .exclusive, ⟨140, 20⟩, 0x37, none⟩, rfl, by decide +kernel⟩,
    ⟨⟨fullClaims, waiters 1 6, boards, 9, []⟩, ⟨100, 6, .claim .shared, ⟨200, 1⟩, 0, none⟩, rfl, rfl,
      by decide +kernel⟩⟩

theorem witness_GrantPassLeavesOnlyBlockedWaiters :
    ∀ v ∈ table3.tables.queue, ∀ n, v.ownRecord = some n → ¬table3.tables.claims.IsFree n := by
  decide +kernel

/-- A cursor of 256; a last granule above the guard limit; a legal span from an ACTIVE and from an UNREGISTERED
initiator. -/
theorem witness_LookupReturnsTheFirstFourRecords :
    (∃ s i w, State.Takes s (.initiator i) .lookup w ∧ s.dirState ≠ .off
      ∧ s.tables.inits[i].state.isActive = true ∧ lookupCursor w = 256)
    ∧ (∃ s i w, State.Takes s (.initiator i) .lookup w ∧ s.dirState ≠ .off
      ∧ s.tables.inits[i].state.isActive = true ∧ lookupCursor w = 255
      ∧ ¬(lookupSpan w).Legal s.config.guardLimit)
    ∧ (∃ s i w, State.Takes s (.initiator i) .lookup w ∧ s.dirState ≠ .off
      ∧ s.tables.inits[i].state = .unregistered ∧ lookupCursor w = 255
      ∧ (lookupSpan w).Legal s.config.guardLimit)
    ∧ ∃ s i w, State.Takes s (.initiator i) .lookup w ∧ s.dirState ≠ .off
      ∧ s.tables.inits[i].state.isActive = true ∧ lookupCursor w = 0
      ∧ (lookupSpan w).Legal s.config.guardLimit :=
  ⟨⟨ask table6 1 (words 0 10 0x10000000 1 0), 1, words 0 10 0x10000000 1 0, takes (by decide +kernel), nofun,
      by decide +kernel, by decide +kernel⟩,
    ⟨ask table6 1 (words 0 10 (0x0FF00000 + 99999) 2 0), 1, words 0 10 (0x0FF00000 + 99999) 2 0,
      takes (by decide +kernel), nofun, by decide +kernel, by decide +kernel, by decide +kernel⟩,
    ⟨ask table6 0 (words 0 10 (0x0FF00000 + 99999) 1 0), 0, words 0 10 (0x0FF00000 + 99999) 1 0,
      takes (by decide +kernel), nofun, rfl, by decide +kernel, by decide +kernel⟩,
    ⟨ask table7 2 (words 0 10 1000 1000 0), 2, words 0 10 1000 1000 0, takes (by decide +kernel), nofun,
      by decide +kernel, by decide +kernel, by decide +kernel⟩⟩

/-- INSPECT-CLAIM of 256, of a FREE record 255 and of one in use; INSPECT-INITIATOR of 8, of an ABSENT 7 and of
one present; INSPECT-WAITER of 64, of 63 beyond the queue and of a position in it. -/
theorem witness_InspectionReturnsTheTables :
    ((∃ s w, State.Takes s .management .inspectClaim w ∧ 255 < w.w2.toNat)
      ∧ (∃ s w, ∃ n : ClaimNo, State.Takes s .management .inspectClaim w ∧ Names w n ∧ s.tables.claims.IsFree n)
      ∧ ∃ s w n c, State.Takes s .management .inspectClaim w ∧ Names w n ∧ s.tables.claims.get n = some c)
    ∧ ((∃ s w, State.Takes s .management .inspectInitiator w ∧ 7 < w.w2.toNat)
      ∧ (∃ s w, ∃ i : Initiator, State.Takes s .management .inspectInitiator w ∧ w.w2.toNat = i.val
        ∧ s.tables.inits[i].state = .absent)
      ∧ ∃ s w, ∃ i : Initiator, State.Takes s .management .inspectInitiator w ∧ w.w2.toNat = i.val
        ∧ s.tables.inits[i].state ≠ .absent)
    ∧ (∃ s w, State.Takes s .management .inspectWaiter w ∧ 63 < w.w2.toNat)
    ∧ (∃ s w, State.Takes s .management .inspectWaiter w ∧ w.w2.toNat = 63
      ∧ s.tables.queue.length ≤ w.w2.toNat)
    ∧ ∃ s w v, State.Takes s .management .inspectWaiter w ∧ w.w2.toNat ≤ 63
      ∧ s.tables.queue[w.w2.toNat]? = some v :=
  ⟨⟨⟨askManager table6 (words 1 7 256 0 0), words 1 7 256 0 0, takes (by decide +kernel), by decide⟩,
      ⟨askManager table6 (words 1 7 255 0 0), words 1 7 255 0 0, 255, takes (by decide +kernel), by decide,
        by decide +kernel⟩,
      ⟨askManager table6 (words 1 7 0 0 0), words 1 7 0 0 0, 0, srec .held 1 100 100, takes (by decide +kernel),
        by decide, by decide +kernel⟩⟩,
    ⟨⟨askManager table6 (words 1 8 8 0 0), words 1 8 8 0 0, takes (by decide +kernel), by decide⟩,
      ⟨askManager table6 (words 1 8 7 0 0), words 1 8 7 0 0, 7, takes (by decide +kernel), by decide, rfl⟩,
      ⟨askManager table6 (words 1 8 3 0 0), words 1 8 3 0 0, 3, takes (by decide +kernel), by decide,
        by decide +kernel⟩⟩,
    ⟨askManager table3 (words 1 9 64 0 0), words 1 9 64 0 0, takes (by decide +kernel), by decide⟩,
    ⟨askManager table3 (words 1 9 63 0 0), words 1 9 63 0 0, takes (by decide +kernel), by decide,
      by decide +kernel⟩,
    ⟨askManager table3 (words 1 9 3 0 0), words 1 9 3 0 0,
      ⟨43, 3, .claim .exclusive, ⟨1120, 20⟩, 0xD4, some 1⟩, takes (by decide +kernel), by decide, rfl⟩⟩

theorem witness_EnableAndDormantMoveTheDirectory :
    (∃ s w, State.Takes s .management .enable w ∧ s.dirState = .off)
    ∧ (∃ s w, State.Takes s .management .enable w ∧ s.dirState = .quiescing)
    ∧ (∃ s w, State.Takes s .management .enable w ∧ s.dirState = .on)
    ∧ (∃ s w, State.Takes s .management .dormant w ∧ s.dirState = .off)
    ∧ (∃ s w, State.Takes s .management .dormant w ∧ s.dirState = .on
      ∧ ∀ i : Initiator, s.mailboxes[i].busy = false)
    ∧ (∃ s w, State.Takes s .management .dormant w ∧ s.dirState = .on
      ∧ ∃ i : Initiator, s.mailboxes[i].busy = true)
    ∧ ∃ s w, State.Takes s .management .dormant w ∧ s.dirState = .quiescing :=
  ⟨⟨askManager State.reset (words 1 1 0 0 0), words 1 1 0 0 0, takes (by decide +kernel), rfl⟩,
    ⟨askManager { table2 with dirState := .quiescing } (words 1 1 0 0 0), words 1 1 0 0 0,
      takes (by decide +kernel), rfl⟩,
    ⟨askManager table2 (words 1 1 0 0 0), words 1 1 0 0 0, takes (by decide +kernel), rfl⟩,
    ⟨askManager State.reset (words 1 3 0 0 0), words 1 3 0 0 0, takes (by decide +kernel), rfl⟩,
    ⟨askManager (quiet table2) (words 1 3 0 0 0), words 1 3 0 0 0, takes (by decide +kernel), rfl,
      by decide +kernel⟩,
    ⟨askManager (ask table2 2 (words 0 3 0 0 0)) (words 1 3 0 0 0), words 1 3 0 0 0, takes (by decide +kernel),
      rfl, 2, by decide +kernel⟩,
    ⟨askManager { quiet table2 with dirState := .quiescing } (words 1 3 0 0 0), words 1 3 0 0 0,
      takes (by decide +kernel), rfl⟩⟩

theorem witness_DisableTearsTheDirectoryDown :
    (∃ s w, State.Takes s .management .disable w ∧ s.dirState = .off)
      ∧ ∃ s w, State.Takes s .management .disable w ∧ s.dirState ≠ .off :=
  ⟨⟨askManager State.reset (words 1 2 0 0 0), words 1 2 0 0 0, takes (by decide +kernel), rfl⟩,
    ⟨askManager table4 (words 1 2 0 0 0), words 1 2 0 0 0, takes (by decide +kernel), nofun⟩⟩

theorem witness_ClearQuarantineFreesTheRecord :
    (∃ s w, State.Takes s .management .clearQuarantine w ∧ s.dirState = .off)
    ∧ (∃ s w, State.Takes s .management .clearQuarantine w ∧ s.dirState ≠ .off ∧ 255 < w.w2.toNat)
    ∧ (∃ s w, ∃ n : ClaimNo, State.Takes s .management .clearQuarantine w ∧ s.dirState ≠ .off ∧ Names w n
      ∧ ∀ c, s.tables.claims.get n = some c → c.phase ≠ .quarantined)
    ∧ ∃ s w n c, State.Takes s .management .clearQuarantine w ∧ s.dirState ≠ .off ∧ Names w n
      ∧ s.tables.claims.get n = some c ∧ c.phase = .quarantined :=
  ⟨⟨askManager State.reset (words 1 5 0 0 0), words 1 5 0 0 0, takes (by decide +kernel), rfl⟩,
    ⟨askManager table6 (words 1 5 256 0 0), words 1 5 256 0 0, takes (by decide +kernel), nofun, by decide⟩,
    ⟨askManager table6 (words 1 5 255 0 0), words 1 5 255 0 0, 255, takes (by decide +kernel), nofun, by decide,
      fun _ h => nomatch h⟩,
    ⟨askManager table6 (words 1 5 5 0 0), words 1 5 5 0 0, 5, xrec .quarantined 3 600 4, takes (by decide +kernel),
      nofun, by decide, by decide +kernel, rfl⟩⟩

theorem witness_ClearCaptureReturnsWhatItClears :
    (∃ s w, State.Takes s .management .clearCapture w ∧ s.capture = none)
      ∧ ∃ s w c, State.Takes s .management .clearCapture w ∧ s.capture = some c :=
  ⟨⟨askManager table6 (words 1 6 0 0 0), words 1 6 0 0 0, takes (by decide +kernel), rfl⟩,
    ⟨askManager { table6 with capture := some ⟨2, 160, .write, .sharedWrite⟩ } (words 1 6 0 0 0),
      words 1 6 0 0 0, ⟨2, 160, .write, .sharedWrite⟩, takes (by decide +kernel), rfl⟩⟩

/-! ### Witnesses: the window -/

theorem ownAccess_table6 : OwnAccess table6 2 := ⟨rfl, by decide +kernel⟩

theorem managerAccess_table6 : ManagerAccess table6 0 := ⟨rfl, by decide +kernel, by decide +kernel⟩

/-- The management mailbox of the example of chapter 6, owned by initiator 0. -/
def owned : State := { table6 with ownership := some ⟨0, 2000, false⟩ }

theorem witness_SubmissionCapturesTheRequest :
    (∃ s who, OwnAccess s who ∧ s.mailboxes[who].busy = false)
      ∧ ∃ s who, ManagerAccess s who ∧ NotOwnedByOther s who ∧ s.mgmt.busy = false
        ∧ s.ownership = some ⟨who, 2000, false⟩ :=
  ⟨⟨table6, 2, ownAccess_table6, by decide +kernel⟩,
    ⟨owned, 0, ⟨rfl, by decide +kernel, by decide +kernel⟩, by decide +kernel, rfl, rfl⟩⟩

theorem witness_WritesToABusyMailboxAreLost :
    (∃ s who, ∃ first last : BitVec 8, OwnAccess s who ∧ s.mailboxes[who].busy = true
      ∧ 64 + 16 * who.val < first.toNat ∧ first.toNat ≤ 64 + 16 * who.val + 5
      ∧ 64 + 16 * who.val < last.toNat ∧ last.toNat = 64 + 16 * who.val + 5)
    ∧ ∃ s who, ManagerAccess s who ∧ NotOwnedByOther s who ∧ s.mgmt.busy = true :=
  ⟨⟨ask table6 2 (words 0 3 0 0 0), 2, 97, 101, ⟨rfl, by decide +kernel⟩, by decide +kernel, by decide,
      by decide, by decide, by decide⟩,
    ⟨askManager table6 (words 1 1 0 0 0), 0, ⟨rfl, by decide +kernel, by decide +kernel⟩, by decide +kernel,
      by decide +kernel⟩⟩

theorem witness_ControlWriteWithoutStartSubmitsNothing :
    OwnAccess table6 2
      ∧ Instr.flagClear 2 (.initiator 2) 4
        ∈ [Instr.attentionEnableWrite 2 (.initiator 2) 4, .flagClear 2 (.initiator 2) 4]
      ∧ ManagerAccess table6 0 ∧ NotOwnedByOther table6 0 :=
  ⟨ownAccess_table6, by decide, managerAccess_table6, by decide +kernel⟩

/-- Words 1 and 15 of an own mailbox and of the management mailbox; the status block, the unused offsets on both
sides, the reserved configuration offsets, and 07Ch with bit 0 as 0. -/
theorem witness_WindowWriteStoresRequestWordsAlone :
    (OwnAccess table6 2 ∧ table6.mailboxes[2].busy = false ∧ (97 : BitVec 8).toNat = 64 + 16 * 2 + 1
      ∧ (111 : BitVec 8).toNat = 64 + 16 * 2 + 15)
    ∧ (ManagerAccess table6 0 ∧ NotOwnedByOther table6 0 ∧ table6.mgmt.busy = false
      ∧ (15 : BitVec 8).toNat ≤ 15)
    ∧ (32 ≤ (32 : BitVec 8).toNat ∧ (63 : BitVec 8).toNat < 64 ∧ 192 ≤ (192 : BitVec 8).toNat)
    ∧ 24 ≤ (24 : BitVec 8).toNat ∧ (30 : BitVec 8).toNat < 31 ∧ (31 : BitVec 8).toNat = 31
    ∧ (2 : Word).getLsbD 0 = false :=
  ⟨⟨ownAccess_table6, by decide +kernel, by decide, by decide⟩,
    ⟨managerAccess_table6, by decide +kernel, by decide +kernel, by decide⟩, by decide, by decide, by decide,
    by decide, by decide⟩

theorem witness_WritesWithoutTheRightChangeNothing :
    (table6.tables.inits[4].state = .absent ∧ table6.inReset = false)
    ∧ (∃ who i : Initiator, ∃ addr : BitVec 8, who ≠ i ∧ 64 + 16 * i.val ≤ addr.toNat
      ∧ addr.toNat < 80 + 16 * i.val)
    ∧ (table6.config.managerSet.getLsbD 1 = false ∧ (31 : BitVec 8).toNat < 32)
    ∧ ∃ s who o, ManagerAccess s who ∧ s.ownership = some o ∧ o.manager ≠ who ∧ (15 : BitVec 8).toNat < 16 :=
  ⟨⟨by decide +kernel, rfl⟩, ⟨1, 0, 79, by decide⟩, ⟨by decide +kernel, by decide⟩,
    ⟨{ table6 with ownership := some ⟨1, 2000, false⟩ }, 0, ⟨1, 2000, false⟩,
      ⟨rfl, by decide +kernel, by decide +kernel⟩, rfl, by decide, by decide⟩⟩

theorem witness_ReadingWord0TakesOwnership :
    (OwnAccess table6 0 ∧ table6.config.managerSet.getLsbD 0 = true ∧ table6.mgmt.busy = false
      ∧ table6.ownership = none)
    ∧ (OwnAccess table6 1 ∧ table6.config.managerSet.getLsbD 1 = false)
    ∧ (OwnAccess owned 0 ∧ owned.ownership ≠ none)
    ∧ (table6.tables.inits[4].state = .absent ∧ table6.capture = none ∧ table6.flight.initiator = some 1)
    ∧ (24 ≤ (24 : BitVec 8).toNat ∧ (30 : BitVec 8).toNat ≤ 30 ∧ 37 ≤ (37 : BitVec 8).toNat
      ∧ (63 : BitVec 8).toNat < 64 ∧ 192 ≤ (192 : BitVec 8).toNat) :=
  ⟨⟨⟨rfl, by decide +kernel⟩, by decide +kernel, by decide +kernel, rfl⟩,
    ⟨⟨rfl, by decide +kernel⟩, by decide +kernel⟩, ⟨⟨rfl, by decide +kernel⟩, nofun⟩,
    ⟨by decide +kernel, rfl, rfl⟩, by decide⟩

/-- A window that ends with the tick, one that ends after it, and no window. -/
theorem witness_OwnershipEndsWithItsWindow :
    (∃ s o, State.inReset s = false ∧ s.ownership = some o ∧ o.submitted = false ∧ ¬s.TickWaits
      ∧ (o.windowEnd - s.usCount).toNat = s.countdown)
    ∧ (∃ s o, State.inReset s = false ∧ s.ownership = some o ∧ o.submitted = false ∧ 0 < s.countdown
      ∧ 0 < s.config.tickPeriod ∧ s.countdown < (o.windowEnd - s.usCount).toNat)
    ∧ ∃ s : State, ∀ o, s.ownership = some o → o.submitted = true :=
  ⟨⟨{ quiet table6 with ownership := some ⟨0, 1000, false⟩ }, ⟨0, 1000, false⟩, rfl, rfl, rfl, by decide,
      by decide +kernel⟩,
    ⟨owned, ⟨0, 2000, false⟩, rfl, rfl, rfl, by decide +kernel, by decide +kernel, by decide +kernel⟩,
    ⟨table6, fun _ h => nomatch h⟩⟩

/-- Both ends of the range of the claim limit in OFF, and the values beside them; a write in ON. -/
theorem witness_ConfigurationIsWrittenInOffAlone :
    (ManagerAccess State.reset 0 ∧ State.reset.dirState = .off
      ∧ (configRange .claimLimit).1 ≤ (1 : Word).toNat ∧ (256 : Word).toNat ≤ (configRange .claimLimit).2)
    ∧ ((0 : Word).toNat < (configRange .claimLimit).1 ∧ (configRange .claimLimit).2 < (257 : Word).toNat)
    ∧ ManagerAccess table6 0 ∧ table6.dirState ≠ .off :=
  ⟨⟨⟨rfl, by decide +kernel, by decide +kernel⟩, rfl, by decide, by decide⟩, by decide,
    managerAccess_table6, nofun⟩

/-! ### Witnesses: queries, fences and time -/

theorem witness_VerdictIsTheFirstLineThatApplies : table6.inReset = false := rfl

/-- A query of an ABSENT initiator with the capture absent and with it present, and one in OFF. -/
theorem witness_FirstFaultIsCaptured :
    (∃ s who granule kind line, State.inReset s = false ∧ LineApplies s who granule kind line
      ∧ (∀ k, 1 ≤ k → k < line → ¬LineApplies s who granule kind k) ∧ lineVerdict line = .fault
      ∧ s.capture = none)
    ∧ (∃ s who granule kind line, State.inReset s = false ∧ LineApplies s who granule kind line
      ∧ (∀ k, 1 ≤ k → k < line → ¬LineApplies s who granule kind k) ∧ lineVerdict line = .fault
      ∧ s.capture ≠ none)
    ∧ ∃ s who granule kind line, State.inReset s = false ∧ LineApplies s who granule kind line
      ∧ (∀ k, 1 ≤ k → k < line → ¬LineApplies s who granule kind k) ∧ lineVerdict line ≠ .fault := by
  refine ⟨⟨table6, 4, 0, .read, 2, rfl, ?_, ?_, rfl, rfl⟩,
    ⟨{ table6 with capture := some ⟨2, 160, .write, .sharedWrite⟩ }, 4, 0, .read, 2, rfl, ?_, ?_, rfl, nofun⟩,
    ⟨State.reset, 0, 0, .read, 1, rfl, rfl, fun k h h' => absurd h' (by omega), nofun⟩⟩
  · exact (rfl : table6.tables.inits[4].state = .absent)
  · intro k h h'
    obtain rfl : k = 1 := by omega
    exact (nofun : ¬table6.dirState = .off)
  · exact (rfl : table6.tables.inits[4].state = .absent)
  · intro k h h'
    obtain rfl : k = 1 := by omega
    exact (nofun : ¬table6.dirState = .off)

theorem witness_FenceIssueTakesTheHead :
    (∃ s i rest, State.inReset s = false ∧ s.tables.claims.Sorted ∧ s.flight = .idle
      ∧ s.tables.fenceQueue = i :: rest)
    ∧ (∃ s : State, s.inReset = false ∧ s.flight ≠ .idle)
    ∧ ∃ s : State, s.inReset = false ∧ s.flight = .idle ∧ s.tables.fenceQueue = [] :=
  ⟨⟨{ table6 with flight := .idle }, 2, [], rfl, by decide +kernel, rfl, rfl⟩, ⟨table6, rfl, nofun⟩,
    ⟨State.reset, rfl, rfl, rfl⟩⟩

/-- A TIMED and a DEFERRED fence, with a record it covers and without one. -/
theorem witness_FenceDoneFinishesTheIssuedDrains :
    (∃ s i, State.inReset s = false ∧ s.tables.claims.Sorted ∧ s.flight.initiator = some i
      ∧ ∃ e ∈ s.tables.claims, e.2.holder = i ∧ e.2.issuedDrain = true)
    ∧ ∃ s i, State.inReset s = false ∧ s.tables.claims.Sorted ∧ s.flight.initiator = some i
      ∧ ∀ e ∈ s.tables.claims, e.2.holder = i → e.2.issuedDrain = false :=
  ⟨⟨table6, 1, rfl, by decide +kernel, rfl, by decide +kernel⟩,
    ⟨{ table6 with flight := .deferred 2 }, 2, rfl, by decide +kernel, rfl, by decide +kernel⟩⟩

theorem witness_DeferStopsTheTimerAndStrayAnswersAreIgnored :
    (∃ s i timer, State.inReset s = false ∧ s.flight = .timed i timer) ∧ (∃ s : State, s.flight = .idle)
      ∧ (∃ s i, State.flight s = .deferred i) ∧ 2 ≤ (2 : BitVec 2).toNat :=
  ⟨⟨table6, 1, 50, rfl, rfl⟩, ⟨State.reset, rfl⟩, ⟨{ table6 with flight := .deferred 2 }, 2, rfl⟩, by decide⟩

/-- A timer of 2, an IDLE unit, a tick held back by a due issue, DORMANT, and a timer of 1. -/
theorem witness_FenceTicksLowerTheTimerUntilItFails :
    (∃ s i, State.inReset s = false ∧ s.dirState ≠ .dormant ∧ s.fenceTick = true ∧ s.flight = .timed i 2)
    ∧ (∃ s : State, s.inReset = false ∧ s.dirState ≠ .dormant ∧ s.fenceTick = true ∧ s.flight = .idle
      ∧ s.fenceTickHeld = false)
    ∧ (∃ s : State, s.flight = .idle ∧ s.tables.fenceQueue ≠ [] ∧ s.fenceTick = true ∧ s.fenceTickHeld = true)
    ∧ (∃ s : State, s.dirState = .dormant ∧ ∃ i, s.flight = .timed i 1)
    ∧ ∃ s i, State.inReset s = false ∧ s.dirState ≠ .dormant ∧ s.tables.claims.Sorted ∧ s.fenceTick = true
      ∧ s.flight = .timed i 1 ∧ ∃ e ∈ s.tables.claims, e.2.holder = i ∧ e.2.issuedDrain = true :=
  ⟨⟨{ table6 with flight := .timed 1 2 }, 1, rfl, nofun, rfl, rfl⟩,
    ⟨{ table6 with flight := .idle }, rfl, nofun, rfl, rfl, rfl⟩,
    ⟨{ table6 with flight := .idle, fenceTickHeld := true }, rfl, by decide +kernel, rfl, rfl⟩,
    ⟨{ table7 with dirState := .dormant }, rfl, 4, rfl⟩,
    ⟨table7, 4, rfl, nofun, by decide +kernel, rfl, rfl, by decide +kernel⟩⟩

/-- No tick waiting with a countdown of 1 on an empty queue; a tick that waits; a request whose completion enters
DORMANT while one does. -/
theorem witness_TickIsDeliveredUnlessDormant :
    (∃ s : State, s.pending = [] ∧ s.inReset = false ∧ ¬s.TickWaits ∧ s.countdown = 1)
    ∧ (∃ s : State, s.pending = [] ∧ s.inReset = false ∧ s.dirState ≠ .dormant ∧ s.TickWaits
      ∧ ∃ o, s.ownership = some o ∧ o.submitted = false)
    ∧ ∃ s m w, (RequestKind.dormant, Instr.dormant) ∈ requestCommands ∧ State.Offers s m .dormant w
      ∧ s.EntersDormancy m .dormant ∧ s.TickWaits := by
  refine ⟨⟨{ State.reset with countdown := 1 }, rfl, rfl, by decide, rfl⟩,
    ⟨owned, rfl, rfl, nofun, by decide, ⟨0, 2000, false⟩, rfl, rfl⟩,
    ⟨askManager table2 (words 1 3 0 0 0), .management, words 1 3 0 0 0, by decide,
      ⟨rfl, by decide +kernel, rfl, by decide +kernel⟩, ⟨Or.inr ⟨rfl, rfl⟩, ?_⟩, by decide⟩⟩
  intro x hx
  cases x with
  | management => exact absurd rfl hx
  | initiator i =>
    have h : ∀ i : Initiator, (askManager table2 (words 1 3 0 0 0)).mailboxes[i].busy = false := by decide +kernel
    exact h i

/-- The example of chapter 4, a tick on which nothing ends, a waiter that expires, and DORMANT. -/
theorem witness_DirectoryTickLowersAndExpires :
    (table4.inReset = false ∧ table4.dirState ≠ .dormant ∧ table4.engineTick = true
      ∧ table4.tables.claims.Sorted ∧ TickPasses table4.tables)
    ∧ (∃ s : State, s.inReset = false ∧ s.dirState ≠ .dormant ∧ s.engineTick = true
      ∧ (∀ v ∈ s.tables.queue, ∀ r, v.remaining = some r → 1 < r)
      ∧ (∀ (i : Initiator) (l : Nat), s.tables.inits[i].state = .active l → 1 < l) ∧ ¬TickPasses s.tables)
    ∧ (∃ (s : State) (v : Waiter), s.inReset = false ∧ s.dirState ≠ .dormant ∧ s.engineTick = true
      ∧ v ∈ s.tables.queue ∧ v.remaining = some 1 ∧ (s.tables.queue.map (·.ticket)).Nodup
      ∧ (∀ x ∈ s.tables.queue, x.remaining ≠ some 0)
      ∧ ∀ l, s.tables.inits[v.initiator].state = .active l → 1 < l)
    ∧ ({ table4 with dirState := .dormant } : State).dirState = .dormant := by
  refine ⟨⟨rfl, nofun, rfl, by decide +kernel, by decide +kernel⟩,
    ⟨table2, rfl, nofun, rfl, ?_, ?_, by decide +kernel⟩,
    ⟨table3, ⟨43, 3, .claim .exclusive, ⟨1120, 20⟩, 0xD4, some 1⟩, rfl, nofun, rfl, by decide +kernel, rfl,
      by decide +kernel, by decide +kernel, ?_⟩, rfl⟩
  · intro v hv r hr
    obtain rfl := List.mem_singleton.mp hv
    cases hr
  · intro i l hl
    have h : ∀ i : Initiator, table2.tables.inits[i].state = .active 500 := by decide +kernel
    rw [h i] at hl
    cases hl
    decide
  · intro l hl
    have h : table3.tables.inits[(3 : Initiator)].state = .active 500 := by decide +kernel
    rw [h] at hl
    cases hl
    decide

/-- The example of chapter 4 meets the laws of the wait queue. -/
theorem waitLaw_table4 : table4.tables.WaitLaw where
  sorted := by decide +kernel
  capacity := ⟨by decide +kernel, by decide +kernel⟩
  runs := by unfold RunsLaw; decide +kernel
  tickets := ⟨by decide +kernel, by decide +kernel, by decide⟩
  upgrades := by
    constructor
    · intro w hw n hn
      simp only [table4, directory, List.mem_cons, List.not_mem_nil, or_false] at hw
      rcases hw with rfl | rfl | rfl
      · cases hn
        exact ⟨srec .held 2 200 30 (some 9), by decide +kernel, rfl, rfl, rfl, rfl, rfl⟩
      · cases hn
      · cases hn
    · intro n c t hc ht
      have hm := Claims.mem_of_get hc
      simp only [table4, directory, List.mem_cons, List.not_mem_nil, or_false, Prod.mk.injEq] at hm
      rcases hm with ⟨rfl, rfl⟩ | ⟨rfl, rfl⟩ | ⟨rfl, rfl⟩ | ⟨rfl, rfl⟩ | ⟨rfl, rfl⟩
      · cases ht
      · cases ht
      · cases ht
      · cases ht
        exact ⟨⟨9, 2, .upgrade 3, ⟨200, 30⟩, 200, none⟩, by decide +kernel, rfl, rfl⟩
      · cases ht

theorem witness_LapseRevokesEverythingHeld :
    table4.inReset = false ∧ table4.dirState ≠ .dormant ∧ table4.engineTick = true ∧ table4.tables.WaitLaw
      ∧ table4.tables.inits[(1 : Initiator)].state = .active 1
      ∧ table4.tables.claims.get 1 = some (xrec .held 1 400 10)
      ∧ table4.tables.claims.get 2 = some (srec (.drainingDown .issued) 1 500 10) :=
  ⟨rfl, nofun, rfl, waitLaw_table4, by decide +kernel, by decide +kernel, by decide +kernel⟩

theorem witness_CommandsNotDueChangeNothing :
    ((RequestKind.claim, Instr.claim) ∈ requestCommands ∧ ∀ m w, ¬State.reset.Offers m .claim w)
    ∧ State.reset.engineTick = false
    ∧ (∀ v ∈ table4.tables.queue, v.ticket = 11 → ∀ r, v.remaining = some r → 1 < r)
    ∧ (∀ l, table4.tables.inits[(2 : Initiator)].state = .active l → 1 < l)
    ∧ ∀ i timer, table4.flight = .timed i timer → 1 < timer := by
  refine ⟨⟨by decide, ?_⟩, rfl, ?_, ?_, ?_⟩
  · intro m w h
    have : State.reset.arbiterChoice = none := by decide +kernel
    rw [h.chosen] at this
    cases this
  · intro v hv ht r hr
    have h : ∀ v ∈ table4.tables.queue, v.ticket = 11 → v.remaining = some 50 := by decide +kernel
    rw [h v hv ht] at hr
    cases hr
    decide
  · intro l hl
    have h : table4.tables.inits[(2 : Initiator)].state = .active 300 := by decide +kernel
    rw [h] at hl
    cases hl
    decide
  · intro i timer h
    cases h
    decide

/-! ### Witnesses: the laws -/

/-- One EXCLUSIVE record, draining, and one waiter that it blocks. -/
def small : State :=
  { directory boards [(0, xrec (.drainingOut .pending) 1 0 1)]
      [⟨7, 2, .claim .shared, ⟨0, 1⟩, 0, some 5⟩] [1] .idle with
    straps := ⟨.eight, false, false⟩ }

theorem waitLaw_small : small.tables.WaitLaw where
  sorted := by decide +kernel
  capacity := ⟨by decide +kernel, by decide +kernel⟩
  runs := by unfold RunsLaw; decide +kernel
  tickets := ⟨by decide +kernel, by decide +kernel, by decide⟩
  upgrades := by
    constructor
    · intro w hw n hn
      obtain rfl := List.mem_singleton.mp hw
      cases hn
    · intro n c t hc ht
      have hm := List.mem_singleton.mp (Claims.mem_of_get hc)
      cases hm
      cases ht

theorem witness_StepKeepsTheWaitQueueLaws : small.tables.WaitLaw ∧ ∃ t, step small = .next t :=
  ⟨waitLaw_small, _, rfl⟩

theorem witness_StepKeepsTheCoverageLaw : small.tables.WaitLaw ∧ small.tables.claims.Coverage := by
  refine ⟨waitLaw_small, ?_⟩
  intro n m c d granule hc hd hne
  have hn := List.mem_singleton.mp (Claims.mem_of_get hc)
  have hm := List.mem_singleton.mp (Claims.mem_of_get hd)
  cases hn
  cases hm
  exact absurd rfl hne

theorem witness_StepKeepsTheClaimLimit : small.LimitLaw :=
  ⟨by decide +kernel, nofun, by decide +kernel⟩

theorem witness_StepLeavesEveryWaiterBlocked :
    small.tables.WaitLaw ∧ AllBlocked small.tables.claims [] small.tables.queue :=
  ⟨waitLaw_small, by decide +kernel, trivial⟩

theorem witness_StepKeepsTheRelationFreeOfCycles : small.tables.WaitLaw ∧ small.tables.NoDeadlock :=
  ⟨waitLaw_small, by unfold Tables.NoDeadlock; decide +kernel⟩

theorem witness_StepKeepsTheLawsOfInitiatorsAndFences :
    table6.tables.IdleLaw ∧ small.FenceLaws := by
  refine ⟨?_, by decide +kernel, fun _ => ⟨⟨by decide +kernel, by decide +kernel⟩, ?_⟩⟩
  · unfold Tables.IdleLaw
    decide +kernel
  · unfold State.FlightLaw
    decide +kernel

theorem witness_StepKeepsTheLawsOfStatesFlagsAndCounts :
    small.OffLaw ∧ small.DormantLaw ∧ small.FlagLaw ∧ small.PresentLaw ∧ small.ManagerLaw
      ∧ small.TimeLaw := by
  refine ⟨nofun, nofun, ?_, ?_, by unfold State.ManagerLaw; decide +kernel, ⟨by decide, by decide⟩,
    ⟨by decide, by decide⟩, ⟨by decide, by decide⟩, ?_, ?_, ⟨by decide, by decide⟩, nofun, nofun⟩
  · intro m
    cases m with
    | management => exact ⟨nofun, rfl⟩
    | initiator i =>
      have h : ∀ i : Initiator, small.mailboxes[i] = Mailbox.reset := by decide +kernel
      show small.mailboxes[i].FlagLaw
      rw [h i]
      exact ⟨nofun, rfl⟩
  · unfold State.PresentLaw
    decide +kernel
  · intro i l hl
    have h : ∀ i : Initiator, small.tables.inits[i].state = .active 500 := by decide +kernel
    rw [h i] at hl
    cases hl
    decide
  · intro w hw r hr
    obtain rfl := List.mem_singleton.mp hw
    cases hr
    decide

end Sys2Proof.Tests
end

