-- ==== Sys2Proof/Proofs/Coverage.lean ====
section
/-! PROOF. The coverage law (R17).  A grant is the one event that can bring two records over one granule, and it needs a
request that conflicts with no record; every other event frees records, or changes them over the span they had without
taking HELD SHARED from one that stays.  The grant of an UPGRADE is judged over the waiter's span and changes the
waiter's record, so both must be the same: `CoverageLaws` adds to the coverage law what the wait queue must keep for
that, and is kept by every event. -/

namespace Sys2Proof.Machine

/-! ### Records over one granule -/

/-- Two spans that hold one granule meet. -/
theorem Span.meets_of_holds {a b : Span} {granule : Nat} (ha : a.holds granule = true)
    (hb : b.holds granule = true) : a.Meets b := by
  rw [Span.holds, Span.overlaps_iff] at ha hb
  simp only [Span.Meets] at ha hb ⊢
  omega

theorem Claim.heldShared_iff {c : Claim} : c.heldShared = true ↔ c.phase = .held ∧ c.mode = .shared := by
  simp [Claim.heldShared]

/-- A request that does not conflict with a record is, over a granule of both, a SHARED request beside a HELD SHARED
record (R16). -/
theorem shared_of_not_conflictsRecord {mode : Mode} {span : Span} {d : Claim} {granule : Nat}
    (h : ¬ConflictsRecord mode span d) (hs : span.holds granule = true) (hd : d.covers granule = true) :
    mode = .shared ∧ d.heldShared = true := by
  have hm := Span.meets_of_holds hs hd
  have hcases : ∀ m : Mode, m ≠ .exclusive → m = .shared := by intro m; cases m <;> simp
  simp only [ConflictsRecord, not_and, not_or, not_not] at h
  obtain ⟨h₁, h₂, h₃⟩ := h hm
  exact ⟨hcases _ h₁, Claim.heldShared_iff.mpr ⟨h₃, hcases _ h₂⟩⟩

/-! ### Tables that cover no more than before -/

/-- Every record of `after` stood in `before` over the same span, and is HELD SHARED if it was. -/
def Claims.Within (after before : Claims) : Prop :=
  ∀ n c', after.get n = some c' →
    ∃ c, before.get n = some c ∧ c'.span = c.span ∧ (c.heldShared = true → c'.heldShared = true)

theorem Claims.Coverage.within {before after : Claims} (h : before.Coverage) (hw : after.Within before) :
    after.Coverage := by
  intro n m c' d' granule hc hd hne hcg hdg
  obtain ⟨c, hc, hcs, hch⟩ := hw n c' hc
  obtain ⟨d, hd, hds, hdh⟩ := hw m d' hd
  rw [Claim.covers, hcs] at hcg
  rw [Claim.covers, hds] at hdg
  exact (h n m c d granule hc hd hne hcg hdg).imp hch hdh

/-- A record put over the span it had, and not HELD SHARED before. -/
theorem Claims.within_put {claims : Claims} {n : ClaimNo} {c c' : Claim} (hg : claims.get n = some c)
    (hc : c.heldShared = false) (hs : c'.span = c.span) : (claims.put n c').Within claims := by
  intro m d hd
  rw [Claims.get_put] at hd
  split at hd
  · rename_i hm
    subst hm
    cases hd
    exact ⟨c, hg, hs, by simp [hc]⟩
  · exact ⟨d, hd, rfl, id⟩

theorem Claims.within_free (claims : Claims) (n : ClaimNo) : (claims.free n).Within claims := by
  intro m d hd
  rw [Claims.get_free] at hd
  split at hd
  · cases hd
  · exact ⟨d, hd, rfl, id⟩

/-- The change `f` leaves the span of a record, and frees a HELD SHARED one or leaves it as it is. -/
def KeepsHeldShared (f : Claim → Option Claim) : Prop :=
  ∀ c c', f c = some c' → c'.span = c.span ∧ (c.heldShared = true → c' = c)

theorem Claims.within_alter {claims : Claims} (hs : claims.Sorted) {f : Claim → Option Claim}
    (hf : KeepsHeldShared f) : (claims.alter fun _ c => f c).Within claims := by
  intro n c' hc'
  rw [Claims.get_alter hs, Option.bind_eq_some_iff] at hc'
  obtain ⟨c, hc, hfc⟩ := hc'
  obtain ⟨hspan, hheld⟩ := hf c c' hfc
  exact ⟨c, hc, hspan, fun h => by rw [hheld h, h]⟩

theorem setUpgradeTicket_get (claims : Claims) (v : Waiter) (t : Option Ticket) (n : ClaimNo) :
    (setUpgradeTicket claims v t).get n =
      if v.ownRecord = some n then (claims.get n).map fun c => { c with upgradeTicket := t }
      else claims.get n := by
  unfold setUpgradeTicket
  split
  · rename_i m hm
    simp only [Claims.get_update, hm, Option.some.injEq, eq_comm]
  · rename_i hm
    simp [hm]

theorem setUpgradeTicket_sorted {claims : Claims} (hs : claims.Sorted) (v : Waiter) (t : Option Ticket) :
    (setUpgradeTicket claims v t).Sorted := by
  unfold setUpgradeTicket
  split
  · exact Claims.sorted_update hs _ _
  · exact hs

theorem Claims.within_setUpgradeTicket (claims : Claims) (v : Waiter) (t : Option Ticket) :
    (setUpgradeTicket claims v t).Within claims := by
  intro n c' hc'
  rw [setUpgradeTicket_get] at hc'
  split at hc'
  · obtain ⟨c, hc, rfl⟩ := Option.map_eq_some_iff.mp hc'
    exact ⟨c, hc, rfl, id⟩
  · exact ⟨c', hc', rfl, id⟩

/-! ### Grants -/

/-- The grant of a request that conflicts with no record keeps the coverage law, when the record of an UPGRADE stands
over the span that was judged. -/
theorem Claims.Coverage.granted {claims : Claims} (h : claims.Coverage) {earlier : List Waiter} {w : Waiter}
    {n : ClaimNo} {c : Claim} (hc : contended claims earlier w = false)
    (hg : grantedRecord claims w = some (n, c))
    (hspan : ∀ d, w.ownRecord = some n → claims.get n = some d → d.span = w.span) :
    (claims.put n c).Coverage := by
  have hfree : ∀ m d, claims.get m = some d → w.ownRecord ≠ some m → ¬ConflictsRecord w.mode w.span d :=
    fun m d hd hm hconf =>
      contended_eq_false_iff.mp hc (Or.inl ⟨(m, d), Claims.mem_of_get hd, hm, hconf⟩)
  have hnew : c.span = w.span ∧ (w.mode = .shared → c.heldShared = true)
      ∧ ∀ m, m ≠ n → w.ownRecord ≠ some m := by
    rcases grantedRecord_eq_some.mp hg with ⟨mode, hk, -, rfl⟩ | ⟨hk, d, hd, rfl⟩
    · exact ⟨rfl, fun hm => Claim.heldShared_iff.mpr ⟨rfl, by simpa [Waiter.mode, hk] using hm⟩,
        fun m _ => by simp [Waiter.ownRecord, hk]⟩
    · exact ⟨hspan d (by simp [Waiter.ownRecord, hk]) hd, fun hm => by simp [Waiter.mode, hk] at hm,
        fun m hm => by simpa [Waiter.ownRecord, hk] using hm.symm⟩
  obtain ⟨hs, hshared, hown⟩ := hnew
  have hpair : ∀ m d granule, m ≠ n → claims.get m = some d → c.covers granule = true →
      d.covers granule = true → c.heldShared = true ∧ d.heldShared = true := by
    intro m d granule hm hd hcg hdg
    rw [Claim.covers, hs] at hcg
    exact (shared_of_not_conflictsRecord (hfree m d hd (hown m hm)) hcg hdg).imp_left hshared
  intro k m e d granule he hd hne heg hdg
  rw [Claims.get_put] at he hd
  split at he <;> split at hd
  · rename_i hk hm
    exact absurd (hk.trans hm.symm) hne
  · rename_i hk hm
    cases he
    exact hpair m d granule hm hd heg hdg
  · rename_i hk hm
    cases hd
    exact (hpair k e granule hk he hdg heg).symm
  · exact h k m e d granule he hd hne heg hdg

/-! ### What the wait queue keeps for the coverage law -/

/-- A waiter that is an UPGRADE names a HELD SHARED record of its own initiator, with its span, its tag and its
ticket (R8, R48). -/
def Waiter.Named (claims : Claims) (w : Waiter) : Prop :=
  ∀ n, w.ownRecord = some n → ∃ c, claims.get n = some c ∧ c.heldShared = true
    ∧ c.holder = w.initiator ∧ c.span = w.span ∧ c.tag = w.tag ∧ c.upgradeTicket = some w.ticket

/-- Two waiters do not name one record. -/
def Waiter.Apart (v w : Waiter) : Prop :=
  ∀ n, v.ownRecord = some n → w.ownRecord ≠ some n

theorem Waiter.Apart.symm {v w : Waiter} (h : v.Apart w) : w.Apart v :=
  fun n hw hv => h n hv hw

/-- The coverage law with what keeps it: the table in its canonical form, and each UPGRADE waiter alone on a HELD
SHARED record of its own span. -/
structure CoverageLaws (claims : Claims) (queue : List Waiter) : Prop where
  sorted : claims.Sorted
  coverage : claims.Coverage
  named : ∀ w ∈ queue, w.Named claims
  apart : queue.Pairwise Waiter.Apart

/-- The law of the wait queue gives the rest: two waiters on one record would both have the ticket it carries. -/
theorem Tables.WaitLaw.coverageLaws {tb : Tables} (h : tb.WaitLaw) (hc : tb.claims.Coverage) :
    CoverageLaws tb.claims tb.queue where
  sorted := h.sorted
  coverage := hc
  named := h.upgrades.1
  apart := by
    have ht : tb.queue.Pairwise fun v w => v.ticket ≠ w.ticket :=
      List.pairwise_map.mp (List.nodup_append.mp h.tickets.1).1
    refine ht.imp_of_mem fun {v w} hv hw hne n hvn hwn => ?_
    obtain ⟨c, hcv, -, -, -, -, htv⟩ := h.upgrades.1 v hv n hvn
    obtain ⟨d, hdw, -, -, -, -, htw⟩ := h.upgrades.1 w hw n hwn
    rw [hcv] at hdw
    cases hdw
    rw [htv] at htw
    exact hne (Option.some.inj htw)

theorem CoverageLaws.apart_of_ne {claims : Claims} {queue : List Waiter} (h : CoverageLaws claims queue)
    {v w : Waiter} (hv : v ∈ queue) (hw : w ∈ queue) (hne : v ≠ w) : v.Apart w :=
  have : Std.Symm Waiter.Apart := ⟨fun _ _ h => h.symm⟩
  h.apart.forall hv hw hne

/-- The laws go over to a table that covers no more and to a queue with fewer waiters, when the records that the
waiters left name are the same. -/
theorem CoverageLaws.changed {claims claims' : Claims} {queue queue' : List Waiter}
    (h : CoverageLaws claims queue) (hs : claims'.Sorted) (hw : claims'.Within claims)
    (hq : queue'.Sublist queue)
    (hkept : ∀ w ∈ queue', ∀ n c, w.ownRecord = some n → claims.get n = some c → c.heldShared = true →
      c.holder = w.initiator → claims'.get n = some c) : CoverageLaws claims' queue' where
  sorted := hs
  coverage := h.coverage.within hw
  named w hmem n hn := by
    obtain ⟨c, hc, hheld, hholder, hrest⟩ := h.named w (hq.subset hmem) n hn
    exact ⟨c, hkept w hmem n c hn hc hheld hholder, hheld, hholder, hrest⟩
  apart := h.apart.sublist hq

/-- Fewer waiters over the same table. -/
theorem CoverageLaws.sublist {claims : Claims} {queue queue' : List Waiter} (h : CoverageLaws claims queue)
    (hq : queue'.Sublist queue) : CoverageLaws claims queue' :=
  h.changed h.sorted (fun _ c hc => ⟨c, hc, rfl, id⟩) hq fun _ _ _ _ _ hc _ _ => hc

/-- A record that is not HELD SHARED moves to another phase or mode. -/
theorem CoverageLaws.put {claims : Claims} {queue : List Waiter} (h : CoverageLaws claims queue) {n : ClaimNo}
    {c c' : Claim} (hg : claims.get n = some c) (hc : c.heldShared = false) (hs : c'.span = c.span) :
    CoverageLaws (claims.put n c') queue := by
  refine h.changed (Claims.sorted_put h.sorted n c') (Claims.within_put hg hc hs) (List.Sublist.refl _) ?_
  intro w _ m d _ hd hheld _
  have hm : m ≠ n := by
    rintro rfl
    rw [hg] at hd
    cases hd
    simp [hc] at hheld
  rw [Claims.get_put, if_neg hm, hd]

/-- A record that no waiter left names becomes FREE. -/
theorem CoverageLaws.free {claims : Claims} {queue queue' : List Waiter} (h : CoverageLaws claims queue)
    {n : ClaimNo} (hq : queue'.Sublist queue) (hn : ∀ w ∈ queue', w.ownRecord ≠ some n) :
    CoverageLaws (claims.free n) queue' := by
  refine h.changed (Claims.sorted_free h.sorted n) (Claims.within_free claims n) hq ?_
  intro w hw m c hm hc _ _
  have hmn : m ≠ n := fun he => hn w hw (he ▸ hm)
  rw [Claims.get_free, if_neg hmn, hc]

/-- Every record changes, the HELD SHARED records of the waiters left excepted. -/
theorem CoverageLaws.alter {claims : Claims} {queue queue' : List Waiter} (h : CoverageLaws claims queue)
    {f : Claim → Option Claim} (hf : KeepsHeldShared f) (hq : queue'.Sublist queue)
    (hkept : ∀ w ∈ queue', ∀ c, c.heldShared = true → c.holder = w.initiator → f c = some c) :
    CoverageLaws (claims.alter fun _ c => f c) queue' := by
  refine h.changed (Claims.sorted_alter h.sorted _) (Claims.within_alter h.sorted hf) hq ?_
  intro w hw n c _ hc hheld hholder
  rw [Claims.get_alter h.sorted, hc, Option.bind_some, hkept w hw c hheld hholder]

/-- The upgrade ticket is set on the record of a waiter that is apart from those left. -/
theorem CoverageLaws.setUpgradeTicket {claims : Claims} {queue queue' : List Waiter}
    (h : CoverageLaws claims queue) {v : Waiter} (t : Option Ticket) (hq : queue'.Sublist queue)
    (hv : ∀ w ∈ queue', v.Apart w) : CoverageLaws (setUpgradeTicket claims v t) queue' := by
  refine h.changed (setUpgradeTicket_sorted h.sorted v t) (Claims.within_setUpgradeTicket claims v t) hq ?_
  intro w hw n c hn hc _ _
  rw [setUpgradeTicket_get, if_neg fun hvn => hv w hw n hvn hn, hc]

/-! ### Grants and the grant pass -/

/-- The grant of a waiter or a request that is apart from the waiters left. -/
theorem CoverageLaws.granted {claims : Claims} {queue queue' earlier : List Waiter} {w : Waiter} {n : ClaimNo}
    {c : Claim} (h : CoverageLaws claims queue) (hc : contended claims earlier w = false)
    (hg : grantedRecord claims w = some (n, c))
    (hspan : ∀ d, w.ownRecord = some n → claims.get n = some d → d.span = w.span)
    (hq : queue'.Sublist queue) (ha : ∀ v ∈ queue', w.Apart v) :
    CoverageLaws (claims.put n c) queue' where
  sorted := Claims.sorted_put h.sorted n c
  coverage := h.coverage.granted hc hg hspan
  named v hv m hm := by
    obtain ⟨d, hd, hrest⟩ := h.named v (hq.subset hv) m hm
    have hmn : m ≠ n := by
      rintro rfl
      rcases grantedRecord_eq_some.mp hg with ⟨_, -, hl, -⟩ | ⟨hk, -⟩
      · rw [(Claims.lowestFree_eq_some.mp hl).1] at hd
        cases hd
      · exact ha v hv m (by simp [Waiter.ownRecord, hk]) hm
    exact ⟨d, by rw [Claims.get_put, if_neg hmn, hd], hrest⟩
  apart := h.apart.sublist hq

theorem CoverageLaws.grantPass {tb : Tables} (h : CoverageLaws tb.claims tb.queue) :
    CoverageLaws (grantPass tb).claims (grantPass tb).queue := by
  refine grantPass_keeps (P := fun tb' => CoverageLaws tb'.claims tb'.queue) ?_ tb h
  intro tb' before w after n c hq h' hj
  rw [hq] at h'
  obtain ⟨hc, hg⟩ := judgeWaiter_eq_some.mp hj
  have hspan : ∀ d, w.ownRecord = some n → tb'.claims.get n = some d → d.span = w.span := by
    intro d hn hd
    obtain ⟨d', hd', -, -, hs, -⟩ := h'.named w (by simp) n hn
    rw [hd] at hd'
    cases hd'
    exact hs
  have hapart : ∀ v ∈ before ++ after, w.Apart v :=
    (List.pairwise_cons.mp ((List.pairwise_middle fun h => h.symm).mp h'.apart)).1
  exact h'.granted hc hg hspan ((List.sublist_cons_self w after).append_left before) hapart

theorem CoverageLaws.grantPassIf {tb : Tables} (h : CoverageLaws tb.claims tb.queue) (b : Bool) :
    CoverageLaws (grantPassIf b tb).claims (grantPassIf b tb).queue :=
  grantPassIf_cases (P := fun tb' => CoverageLaws tb'.claims tb'.queue) h h.grantPass

/-! ### Queuing -/

/-- The queue with a new waiter holds it and the waiters it had (R48). -/
theorem placeWaiter_perm (queue : List Waiter) (v : Waiter) : (placeWaiter queue v).Perm (v :: queue) := by
  unfold placeWaiter aheadOf behindOf
  split
  · exact List.perm_append_singleton v queue
  · simpa only [List.takeWhile_append_dropWhile] using (List.perm_middle (a := v)
      (l₁ := queue.takeWhile Waiter.isUpgrade) (l₂ := queue.dropWhile Waiter.isUpgrade))

/-- No waiter names a record that carries no upgrade ticket. -/
theorem CoverageLaws.not_named {claims : Claims} {queue : List Waiter} (h : CoverageLaws claims queue)
    {n : ClaimNo} {c : Claim} (hg : claims.get n = some c) (ht : c.upgradeTicket = none) :
    ∀ w ∈ queue, w.ownRecord ≠ some n := by
  intro w hw hn
  obtain ⟨d, hd, -, -, -, -, htd⟩ := h.named w hw n hn
  rw [hg] at hd
  cases hd
  simp [ht] at htd

/-- A new waiter is queued: a CLAIM, or an UPGRADE on a HELD SHARED record of its initiator that carries no ticket. -/
theorem CoverageLaws.queueWaiter {tb : Tables} {v : Waiter} (h : CoverageLaws tb.claims tb.queue)
    (hv : ∀ n, v.ownRecord = some n → ∃ c, tb.claims.get n = some c ∧ c.heldShared = true
      ∧ c.holder = v.initiator ∧ c.span = v.span ∧ c.tag = v.tag ∧ c.upgradeTicket = none) :
    CoverageLaws (queueWaiter tb v).claims (queueWaiter tb v).queue := by
  have hapart : ∀ w ∈ tb.queue, v.Apart w := by
    intro w hw n hn
    obtain ⟨c, hc, -, -, -, -, ht⟩ := hv n hn
    exact h.not_named hc ht w hw
  have hold := h.setUpgradeTicket (some v.ticket) (List.Sublist.refl _) hapart
  have hperm := placeWaiter_perm tb.queue v
  refine ⟨hold.sorted, hold.coverage, ?_, ?_⟩
  · intro w hw
    rcases List.mem_cons.mp (hperm.mem_iff.mp hw) with rfl | hw
    · intro n hn
      obtain ⟨c, hc, hheld, hholder, hspan, htag, -⟩ := hv n hn
      exact ⟨{ c with upgradeTicket := some w.ticket },
        by simp only [Machine.queueWaiter, setUpgradeTicket_get, hn, hc, if_true, Option.map_some],
        hheld, hholder, hspan, htag, rfl⟩
    · exact hold.named w hw
  · exact (hperm.pairwise_iff fun h => h.symm).mpr (List.pairwise_cons.mpr ⟨hapart, h.apart⟩)

/-! ### Moves out of ACTIVE and the tick -/

theorem disposeRecord_keepsHeldShared (i : Initiator) : KeepsHeldShared (disposeRecord i) := by
  intro c c' h
  unfold disposeRecord at h
  split at h
  · split at h
    · cases h
    · rename_i hp hm
      cases h
      exact ⟨rfl, fun hc => by simp [Claim.heldShared, hm] at hc⟩
    · rename_i stage hp
      cases h
      exact ⟨rfl, fun hc => by simp [Claim.heldShared, hp] at hc⟩
    all_goals
      cases h
      exact ⟨rfl, fun _ => rfl⟩
  · cases h
    exact ⟨rfl, fun _ => rfl⟩

theorem disposeRecord_of_holder_ne {i : Initiator} {c : Claim} (h : c.holder ≠ i) :
    disposeRecord i c = some c := by
  rw [disposeRecord, if_neg h]

/-- An initiator leaves with its waiters, so the records that the others name stay (R77, R81). -/
theorem CoverageLaws.leaveActive {tb : Tables} (h : CoverageLaws tb.claims tb.queue) (i : Initiator)
    (st : InitState) : CoverageLaws (leaveActive tb i st).claims (leaveActive tb i st).queue := by
  refine h.alter (disposeRecord_keepsHeldShared i) List.filter_sublist ?_
  intro w hw c _ hholder
  have hwi : w.initiator ≠ i := by simpa using (List.mem_filter.mp hw).2
  exact disposeRecord_of_holder_ne (hholder ▸ hwi)

theorem tickLease_cases (tb : Tables) (i : Initiator) :
    tickLease tb i = leaveActive tb i .lapsed
      ∨ ((tickLease tb i).claims = tb.claims ∧ (tickLease tb i).queue = tb.queue) := by
  unfold tickLease
  split
  · split
    · exact Or.inl rfl
    · exact Or.inr ⟨rfl, rfl⟩
  all_goals exact Or.inr ⟨rfl, rfl⟩

theorem CoverageLaws.tickLease {tb : Tables} (h : CoverageLaws tb.claims tb.queue) (i : Initiator) :
    CoverageLaws (tickLease tb i).claims (tickLease tb i).queue := by
  rcases tickLease_cases tb i with hl | ⟨hc, hq⟩
  · rw [hl]
    exact h.leaveActive i .lapsed
  · rw [hc, hq]
    exact h

theorem CoverageLaws.tickLeases {tb : Tables} (h : CoverageLaws tb.claims tb.queue) :
    CoverageLaws (tickLeases tb).claims (tickLeases tb).queue :=
  List.foldlRecOn (motive := fun tb' : Tables => CoverageLaws tb'.claims tb'.queue) (List.finRange 8)
    Machine.tickLease h fun _ h' i _ => h'.tickLease i

/-- The laws do not see what is left of a wait. -/
theorem CoverageLaws.lower {claims : Claims} {queue : List Waiter} (h : CoverageLaws claims queue) :
    CoverageLaws claims (queue.map Waiter.lower) where
  sorted := h.sorted
  coverage := h.coverage
  named w hw := by
    obtain ⟨v, hv, rfl⟩ := List.mem_map.mp hw
    exact h.named v hv
  apart := List.pairwise_map.mpr h.apart

/-- Waiters expire that have left the queue and are apart from those in it. -/
theorem CoverageLaws.expireWaiters {tb : Tables} (h : CoverageLaws tb.claims tb.queue) (expired : List Waiter)
    (ha : ∀ v ∈ expired, ∀ w ∈ tb.queue, v.Apart w) :
    CoverageLaws (expired.foldl expireWaiter tb).claims (expired.foldl expireWaiter tb).queue := by
  induction expired generalizing tb with
  | nil => exact h
  | cons v rest ih =>
    obtain ⟨hv, hrest⟩ := List.forall_mem_cons.mp ha
    exact ih (tb := expireWaiter tb v) (h.setUpgradeTicket none (List.Sublist.refl _) hv) hrest

theorem CoverageLaws.tickExpiry {tb : Tables} (h : CoverageLaws tb.claims tb.queue) :
    CoverageLaws (tickExpiry tb).claims (tickExpiry tb).queue := by
  refine CoverageLaws.expireWaiters
    (tb := { tb with queue := (tb.queue.filter fun w => !w.expires).map Waiter.lower })
    (h.sublist List.filter_sublist).lower _ ?_
  intro v hv w hw
  obtain ⟨u, hu, rfl⟩ := List.mem_map.mp hw
  obtain ⟨hvq, hve⟩ := List.mem_filter.mp hv
  obtain ⟨huq, hue⟩ := List.mem_filter.mp hu
  have hvu : v ≠ u := by
    rintro rfl
    simp [hve] at hue
  have hapart : v.Apart u := h.apart_of_ne hvq huq hvu
  exact hapart

theorem CoverageLaws.tickTables {tb : Tables} (h : CoverageLaws tb.claims tb.queue) :
    CoverageLaws (tickTables tb).claims (tickTables tb).queue :=
  h.tickExpiry.tickLeases.grantPassIf _

/-! ### Fences -/

/-- A change of draining records alone, over their spans, keeps the laws. -/
theorem CoverageLaws.alterDrains {claims : Claims} {queue : List Waiter} (h : CoverageLaws claims queue)
    {f : Claim → Option Claim} (hspan : ∀ c c', f c = some c' → c'.span = c.span)
    (hheld : ∀ c, c.phase = .held → f c = some c) : CoverageLaws (claims.alter fun _ c => f c) queue := by
  have hkept : ∀ c, c.heldShared = true → f c = some c := fun c hc =>
    hheld c (Claim.heldShared_iff.mp hc).1
  refine h.alter (fun c c' hc => ⟨hspan c c' hc, fun hs => ?_⟩) (List.Sublist.refl _)
    fun _ _ c hc _ => hkept c hc
  rw [hkept c hs] at hc
  exact (Option.some.inj hc).symm

theorem issueDrain_span (i : Initiator) (c : Claim) : (issueDrain i c).span = c.span := by
  unfold issueDrain
  split
  · split <;> rfl
  · rfl

theorem issueDrain_of_held {i : Initiator} {c : Claim} (h : c.phase = .held) : issueDrain i c = c := by
  simp [issueDrain, h]

theorem failDrain_span (i : Initiator) (c : Claim) : (failDrain i c).span = c.span := by
  unfold failDrain
  split
  · split <;> rfl
  · rfl

theorem failDrain_of_held {i : Initiator} {c : Claim} (h : c.phase = .held) : failDrain i c = c := by
  simp [failDrain, h]

theorem finishDrain_span {i : Initiator} {c c' : Claim} (h : finishDrain i c = some c') : c'.span = c.span := by
  unfold finishDrain at h
  split at h
  · split at h <;> cases h <;> rfl
  · cases h
    rfl

theorem finishDrain_of_held {i : Initiator} {c : Claim} (h : c.phase = .held) : finishDrain i c = some c := by
  simp [finishDrain, h]

theorem CoverageLaws.issueTables {tb : Tables} (h : CoverageLaws tb.claims tb.queue) (i : Initiator)
    (rest : List Initiator) : CoverageLaws (issueTables tb i rest).claims (issueTables tb i rest).queue :=
  h.alterDrains (f := fun c => some (issueDrain i c))
    (fun c _ hc => Option.some.inj hc ▸ issueDrain_span i c)
    fun _ hc => congrArg some (issueDrain_of_held hc)

theorem CoverageLaws.doneOutcome {tb : Tables} (h : CoverageLaws tb.claims tb.queue) (i : Initiator) :
    CoverageLaws (doneOutcome tb i).claims (doneOutcome tb i).queue :=
  CoverageLaws.grantPassIf (tb := { tb with claims := tb.claims.alter fun _ c => finishDrain i c })
    (h.alterDrains (fun _ _ => finishDrain_span) fun _ => finishDrain_of_held) _

theorem CoverageLaws.failedOutcome {tb : Tables} (h : CoverageLaws tb.claims tb.queue) (i : Initiator) :
    CoverageLaws (failedOutcome tb i).claims (failedOutcome tb i).queue :=
  CoverageLaws.grantPassIf (tb := { tb with claims := tb.claims.alter fun _ c => some (failDrain i c) })
    (h.alterDrains (f := fun c => some (failDrain i c))
      (fun c _ hc => Option.some.inj hc ▸ failDrain_span i c)
      fun _ hc => congrArg some (failDrain_of_held hc)) _

/-! ### Requests -/

theorem CoverageLaws.nil : CoverageLaws [] [] where
  sorted := List.Pairwise.nil
  coverage := fun _ _ _ _ _ h => nomatch h
  named := fun _ h => nomatch h
  apart := List.Pairwise.nil

/-- A request that is judged against every waiter and granted at once. -/
theorem CoverageLaws.judgeClaim {tb : Tables} (h : CoverageLaws tb.claims tb.queue) (cfg : ConfigRegs)
    (i : Initiator) (w : RequestWords) :
    CoverageLaws (judgeClaim cfg i w tb).1.claims (judgeClaim cfg i w tb).1.queue := by
  have hown : ∀ mode n, (claimWaiter tb i mode w).ownRecord ≠ some n := nofun
  rcases judgeClaim_cases cfg i w tb with
    ht | ⟨mode, -, -, -, -, ⟨n, hc, hl, ht⟩ | ⟨-, -, -, ht⟩⟩ <;> rw [ht]
  · exact h
  · exact h.granted hc (grantedRecord_eq_some.mpr (Or.inl ⟨mode, rfl, hl, rfl⟩))
      (fun _ hn => absurd hn (hown mode n)) (List.Sublist.refl _) fun _ _ m hm => absurd hm (hown mode m)
  · exact h.queueWaiter fun n hn => absurd hn (hown mode n)

theorem NamesHeld.heldShared {claims : Claims} {i : Initiator} {w : RequestWords} {n : ClaimNo} {c : Claim}
    (h : NamesHeld claims i w n c .shared) : c.heldShared = true :=
  Claim.heldShared_iff.mpr ⟨h.phase, h.mode⟩

theorem NamesHeld.not_heldShared {claims : Claims} {i : Initiator} {w : RequestWords} {n : ClaimNo} {c : Claim}
    (h : NamesHeld claims i w n c .exclusive) : c.heldShared = false := by
  simp [Claim.heldShared, h.mode]

theorem NamesDraining.not_heldShared {claims : Claims} {i : Initiator} {w : RequestWords} {n : ClaimNo}
    {c : Claim} {stage : Stage} (h : NamesDraining claims i w n c stage) : c.heldShared = false := by
  simp [Claim.heldShared, h.phase]

/-- The record of an UPGRADE that is served carries no ticket, so no waiter names it. -/
theorem CoverageLaws.judgeUpgrade {tb : Tables} (h : CoverageLaws tb.claims tb.queue) (cfg : ConfigRegs)
    (i : Initiator) (w : RequestWords) :
    CoverageLaws (judgeUpgrade cfg i w tb).1.claims (judgeUpgrade cfg i w tb).1.queue := by
  rcases judgeUpgrade_cases cfg i w tb with
    ht | ⟨n, c, hheld, htick, ⟨hc, -, ht⟩ | ⟨-, -, -, ht⟩⟩ <;> rw [ht]
  · exact h
  · refine h.granted hc (grantedRecord_eq_some.mpr (Or.inr ⟨rfl, c, hheld.record, rfl⟩)) ?_
      (List.Sublist.refl _) ?_
    · intro d _ hd
      rw [hheld.record] at hd
      cases hd
      rfl
    · rintro v hv _ ⟨⟩
      exact h.not_named hheld.record htick v hv
  · refine h.queueWaiter ?_
    rintro _ ⟨⟩
    exact ⟨c, hheld.record, hheld.heldShared, hheld.holder, rfl, rfl, htick⟩

theorem CoverageLaws.judgeDowngrade {tb : Tables} (h : CoverageLaws tb.claims tb.queue) (cfg : ConfigRegs)
    (i : Initiator) (w : RequestWords) :
    CoverageLaws (judgeDowngrade cfg i w tb).1.claims (judgeDowngrade cfg i w tb).1.queue := by
  rcases judgeDowngrade_cases cfg i w tb with ht | ⟨n, c, hheld, ht⟩ <;> rw [ht]
  · exact h
  · exact h.put hheld.record hheld.not_heldShared rfl

/-- The waiter on a record that is released is withdrawn, so no waiter left names the record (R9, R40). -/
theorem CoverageLaws.releaseShared {tb : Tables} (h : CoverageLaws tb.claims tb.queue) {n : ClaimNo} {c : Claim}
    (hg : tb.claims.get n = some c) (i : Initiator) :
    CoverageLaws (releaseShared tb i n c).claims (releaseShared tb i n c).queue := by
  refine CoverageLaws.grantPass ?_
  cases ht : c.upgradeTicket with
  | none => exact h.free (List.Sublist.refl _) (h.not_named hg ht)
  | some t =>
    refine h.free List.filter_sublist fun w hw hn => ?_
    obtain ⟨hwq, hwt⟩ := List.mem_filter.mp hw
    obtain ⟨d, hd, -, -, -, -, htd⟩ := h.named w hwq n hn
    rw [hg] at hd
    cases hd
    rw [ht] at htd
    cases htd
    simp at hwt

theorem CoverageLaws.judgeRelease {tb : Tables} (h : CoverageLaws tb.claims tb.queue) (cfg : ConfigRegs)
    (i : Initiator) (w : RequestWords) :
    CoverageLaws (judgeRelease cfg i w tb).1.claims (judgeRelease cfg i w tb).1.queue := by
  rcases judgeRelease_cases cfg i w tb with
    ht | ⟨n, c, hheld, ht⟩ | ⟨n, c, hheld, ht⟩ | ⟨n, c, stage, hdrain, ht⟩ <;> rw [ht]
  · exact h
  · exact h.releaseShared hheld.record i
  · exact h.put hheld.record hheld.not_heldShared rfl
  · exact h.put hdrain.record hdrain.not_heldShared rfl

/-- A cancelled waiter was apart from every waiter with another ticket. -/
theorem CoverageLaws.cancelTables {tb : Tables} (h : CoverageLaws tb.claims tb.queue) {v : Waiter}
    (hv : v ∈ tb.queue) : CoverageLaws (cancelTables tb v).claims (cancelTables tb v).queue := by
  refine CoverageLaws.grantPass (h.setUpgradeTicket none List.filter_sublist fun w hw => ?_)
  obtain ⟨hwq, hwt⟩ := List.mem_filter.mp hw
  have hvw : v ≠ w := by
    rintro rfl
    simp at hwt
  exact h.apart_of_ne hv hwq hvw

theorem CoverageLaws.judgeCancel {tb : Tables} (h : CoverageLaws tb.claims tb.queue) (cfg : ConfigRegs)
    (i : Initiator) (w : RequestWords) :
    CoverageLaws (judgeCancel cfg i w tb).1.claims (judgeCancel cfg i w tb).1.queue := by
  rcases judgeCancel_cases cfg i w tb with ht | ⟨v, hv, -, -, ht⟩ <;> rw [ht]
  · exact h
  · exact h.cancelTables hv

theorem CoverageLaws.judgeTakeNotice {tb : Tables} (h : CoverageLaws tb.claims tb.queue) (cfg : ConfigRegs)
    (i : Initiator) (w : RequestWords) :
    CoverageLaws (judgeTakeNotice cfg i w tb).1.claims (judgeTakeNotice cfg i w tb).1.queue := by
  rcases judgeTakeNotice_cases cfg i w tb with ht | ⟨n, rest, -, ht⟩ <;> rw [ht] <;> exact h

theorem CoverageLaws.judgeRegister {tb : Tables} (h : CoverageLaws tb.claims tb.queue) (cfg : ConfigRegs)
    (i : Initiator) (w : RequestWords) :
    CoverageLaws (judgeRegister cfg i w tb).1.claims (judgeRegister cfg i w tb).1.queue := by
  rcases judgeRegister_cases cfg i w tb with ⟨-, ht⟩ | ⟨-, ht⟩ <;> rw [ht] <;> exact h

theorem CoverageLaws.judgeUnregister {tb : Tables} (h : CoverageLaws tb.claims tb.queue) (cfg : ConfigRegs)
    (i : Initiator) (w : RequestWords) :
    CoverageLaws (judgeUnregister cfg i w tb).1.claims (judgeUnregister cfg i w tb).1.queue := by
  rw [judgeUnregister_tables]
  exact (h.leaveActive i .unregistered).grantPassIf _

/-- Every initiator request past its gate keeps the laws. -/
theorem CoverageLaws.judged {tb : Tables} (h : CoverageLaws tb.claims tb.queue) {k : RequestKind}
    {judge : InitiatorJudge} (hm : (k, judge) ∈ initiatorJudges) (cfg : ConfigRegs) (i : Initiator)
    (w : RequestWords) : CoverageLaws (judge cfg i w tb).1.claims (judge cfg i w tb).1.queue := by
  simp only [initiatorJudges, List.mem_cons, List.not_mem_nil, or_false, Prod.mk.injEq] at hm
  rcases hm with ⟨-, rfl⟩ | ⟨-, rfl⟩ | ⟨-, rfl⟩ | ⟨-, rfl⟩ | ⟨-, rfl⟩ | ⟨-, rfl⟩ | ⟨-, rfl⟩ | ⟨-, rfl⟩
    | ⟨-, rfl⟩ | ⟨-, rfl⟩
  · exact h.judgeRegister cfg i w
  · exact h.judgeUnregister cfg i w
  · exact h
  · exact h.judgeClaim cfg i w
  · exact h.judgeUpgrade cfg i w
  · exact h.judgeDowngrade cfg i w
  · exact h.judgeRelease cfg i w
  · exact h.judgeCancel cfg i w
  · exact h.judgeTakeNotice cfg i w
  · rw [judgeLookup_tables]
    exact h

/-! ### Every event and every step -/

@[simp] theorem State.afterTake_claims (s : State) (i : Initiator) : (s.afterTake i).claims = s.tables.claims := by
  unfold State.afterTake
  split <;> rfl

@[simp] theorem State.afterTake_queue (s : State) (i : Initiator) : (s.afterTake i).queue = s.tables.queue := by
  unfold State.afterTake
  split <;> rfl

theorem CoverageLaws.tablesStep {s : State} {tb : Tables} (h : CoverageLaws s.tables.claims s.tables.queue)
    (hs : TablesStep s tb) : CoverageLaws tb.claims tb.queue := by
  have htaken : ∀ i, CoverageLaws (s.afterTake i).claims (s.afterTake i).queue := fun i => by
    rw [State.afterTake_claims, State.afterTake_queue]
    exact h
  cases hs with
  | keep => exact h
  | taken i _ => exact htaken i
  | judged k judge i w _ hm _ => exact (htaken i).judged hm s.config i w
  | evicted i _ _ => exact (h.leaveActive i .lapsed).grantPassIf _
  | cleared n c _ hg hq =>
    have hn : ∀ w ∈ s.tables.queue, w.ownRecord ≠ some n := by
      intro w hw hn
      obtain ⟨d, hd, hheld, -⟩ := h.named w hw n hn
      rw [hg] at hd
      cases hd
      simp [Claim.heldShared, hq] at hheld
    exact CoverageLaws.grantPass (h.free (List.Sublist.refl _) hn)
  | tornDown _ => exact .nil
  | ticked _ => exact h.tickTables
  | issued i rest _ _ _ => exact h.issueTables i rest
  | done i _ _ => exact h.doneOutcome i
  | failed i _ _ => exact h.failedOutcome i
  | reset present => exact .nil

/-- Every step keeps the coverage law together with what it rests on. -/
theorem step_keeps_coverageLaws {s t : State} (h : CoverageLaws s.tables.claims s.tables.queue)
    (hstep : step s = .next t) : CoverageLaws t.tables.claims t.tables.queue := by
  obtain ⟨s', u, hs', htime, htables⟩ := step_tables hstep
  have hs : CoverageLaws s'.tables.claims s'.tables.queue := by
    rw [hs']
    exact h
  have hu : CoverageLaws u.tables.claims u.tables.queue :=
    htime.preserve (P := fun x => CoverageLaws x.tables.claims x.tables.queue)
      (fun _ _ he hx => hx.tablesStep he.tables) hs
  exact hu.tablesStep htables

/-- Settles O55: the step begins with the laws that `CoverageLaws` asks for, and keeps them. -/
theorem stepKeepsTheCoverageLaw : Obligations.StepKeepsTheCoverageLaw := by
  intro s t hwait hcov hstep
  exact (step_keeps_coverageLaws (hwait.coverageLaws hcov) hstep).coverage

end Sys2Proof.Machine
end

/-! PROOF. The wait queue at the end of every event: every waiter blocked (R53), the wait-for relation free of cycles
(R64).  An event either leaves every waiter and only tightens records; or grants a request at once; or queues one; or
loosens records and removes waiters and then runs a grant pass; or empties the tables.  `EngineMove` says that once of
every event, and each law is kept by each of these moves.  What a grant of an UPGRADE does is known only while its
waiter names a record of its own, so `NamedLaws` is kept along with both. -/

namespace Sys2Proof.Machine

/-! ### Records that loosen and records that tighten -/

/-- A record conflicts by its span, and with a SHARED request unless it is HELD SHARED (R16). -/
theorem conflictsRecord_iff_heldShared {mode : Mode} {span : Span} {c : Claim} :
    ConflictsRecord mode span c ↔ span.Meets c.span ∧ (mode = .exclusive ∨ c.heldShared = false) := by
  have hc : c.heldShared = false ↔ c.mode = .exclusive ∨ c.phase ≠ .held := by
    cases hm : c.mode <;> simp [Claim.heldShared, hm]
  rw [hc]

/-- The record becomes `c'`, which conflicts with no more than it did, live only if it was. -/
structure Claim.LoosensTo (c c' : Claim) : Prop where
  holder : c'.holder = c.holder
  span : c'.span = c.span
  live : c'.live = true → c.live = true
  heldShared : c.heldShared = true → c'.heldShared = true

/-- The record becomes `c'`, which conflicts with no less than it did. -/
structure Claim.TightensTo (c c' : Claim) : Prop where
  span : c'.span = c.span
  heldShared : c'.heldShared = true → c.heldShared = true

theorem Claim.LoosensTo.refl (c : Claim) : c.LoosensTo c := ⟨rfl, rfl, id, id⟩

theorem Claim.LoosensTo.trans {c d e : Claim} (h : c.LoosensTo d) (h' : d.LoosensTo e) : c.LoosensTo e :=
  ⟨h'.holder.trans h.holder, h'.span.trans h.span, h.live ∘ h'.live, h'.heldShared ∘ h.heldShared⟩

theorem Claim.LoosensTo.conflicts {c c' : Claim} (h : c.LoosensTo c') {mode : Mode} {span : Span}
    (hc : ConflictsRecord mode span c') : ConflictsRecord mode span c := by
  rw [conflictsRecord_iff_heldShared, h.span] at hc
  refine conflictsRecord_iff_heldShared.mpr (hc.imp_right (Or.imp_right fun hn => ?_))
  exact Bool.eq_false_iff.mpr fun hs => Bool.eq_false_iff.mp hn (h.heldShared hs)

theorem Claim.TightensTo.refl (c : Claim) : c.TightensTo c := ⟨rfl, id⟩

theorem Claim.TightensTo.conflicts {c c' : Claim} (h : c.TightensTo c') {mode : Mode} {span : Span}
    (hc : ConflictsRecord mode span c) : ConflictsRecord mode span c' := by
  rw [conflictsRecord_iff_heldShared, ← h.span] at hc
  refine conflictsRecord_iff_heldShared.mpr (hc.imp_right (Or.imp_right fun hn => ?_))
  exact Bool.eq_false_iff.mpr fun hs => Bool.eq_false_iff.mp hn (h.heldShared hs)

/-! ### Tables that tighten -/

/-- Every record of `before` still stands in `after`, as it was or with more conflicts. -/
def Claims.Tighter (after before : Claims) : Prop :=
  ∀ n c, before.get n = some c → ∃ c', after.get n = some c' ∧ c.TightensTo c'

theorem Claims.Tighter.refl (claims : Claims) : claims.Tighter claims :=
  fun _ c hc => ⟨c, hc, .refl c⟩

theorem Claims.tighter_put {claims : Claims} {n : ClaimNo} {c' : Claim}
    (h : ∀ c, claims.get n = some c → c.TightensTo c') : (claims.put n c').Tighter claims := by
  intro m c hc
  rw [Claims.get_put]
  split
  · rename_i hm
    subst hm
    exact ⟨c', rfl, h c hc⟩
  · exact ⟨c, hc, .refl c⟩

theorem Claims.tighter_alter {claims : Claims} (hs : claims.Sorted) {f : Claim → Option Claim}
    (h : ∀ e ∈ claims, ∃ c', f e.2 = some c' ∧ e.2.TightensTo c') :
    (claims.alter fun _ c => f c).Tighter claims := by
  intro n c hc
  obtain ⟨c', hf, ht⟩ := h _ (Claims.mem_of_get hc)
  exact ⟨c', by rw [Claims.get_alter hs, hc, Option.bind_some, hf], ht⟩

theorem Claims.tighter_setUpgradeTicket (claims : Claims) (v : Waiter) (t : Option Ticket) :
    (setUpgradeTicket claims v t).Tighter claims := by
  intro n c hc
  rw [setUpgradeTicket_get]
  split
  · exact ⟨{ c with upgradeTicket := t }, by rw [hc, Option.map_some], rfl, id⟩
  · exact ⟨c, hc, .refl c⟩

/-- A grant at most tightens the table: a CLAIM takes a FREE record, an UPGRADE makes its own EXCLUSIVE (R7, R8). -/
theorem Claims.tighter_granted {claims : Claims} {w : Waiter} {n : ClaimNo} {c : Claim}
    (hg : grantedRecord claims w = some (n, c)) : (claims.put n c).Tighter claims := by
  refine Claims.tighter_put fun d hd => ?_
  rcases grantedRecord_eq_some.mp hg with ⟨_, -, hl, -⟩ | ⟨-, d', hd', rfl⟩
  · rw [(Claims.lowestFree_eq_some.mp hl).1] at hd
    cases hd
  · rw [hd'] at hd
    cases hd
    exact ⟨rfl, fun hs => by simp [Claim.heldShared] at hs⟩

/-! ### Tables that loosen -/

/-- Every record of `after` stood in `before`, as it is or with more conflicts. -/
def Claims.Looser (after before : Claims) : Prop :=
  ∀ n c', after.get n = some c' → ∃ c, before.get n = some c ∧ c.LoosensTo c'

theorem Claims.Looser.refl (claims : Claims) : claims.Looser claims :=
  fun _ c hc => ⟨c, hc, .refl c⟩

theorem Claims.Looser.trans {claims claims' claims'' : Claims} (h : claims'.Looser claims)
    (h' : claims''.Looser claims') : claims''.Looser claims := by
  intro n c'' hc''
  obtain ⟨c', hc', hl'⟩ := h' n c'' hc''
  obtain ⟨c, hc, hl⟩ := h n c' hc'
  exact ⟨c, hc, hl.trans hl'⟩

theorem Claims.looser_put {claims : Claims} {n : ClaimNo} {c c' : Claim} (hg : claims.get n = some c)
    (hl : c.LoosensTo c') : (claims.put n c').Looser claims := by
  intro m d hd
  rw [Claims.get_put] at hd
  split at hd
  · rename_i hm
    subst hm
    cases hd
    exact ⟨c, hg, hl⟩
  · exact ⟨d, hd, .refl d⟩

theorem Claims.looser_free (claims : Claims) (n : ClaimNo) : (claims.free n).Looser claims := by
  intro m d hd
  rw [Claims.get_free] at hd
  split at hd
  · cases hd
  · exact ⟨d, hd, .refl d⟩

theorem Claims.looser_alter {claims : Claims} (hs : claims.Sorted) {f : Claim → Option Claim}
    (hf : ∀ c c', f c = some c' → c.LoosensTo c') : (claims.alter fun _ c => f c).Looser claims := by
  intro n c' hc'
  rw [Claims.get_alter hs, Option.bind_eq_some_iff] at hc'
  obtain ⟨c, hc, hfc⟩ := hc'
  exact ⟨c, hc, hf c c' hfc⟩

theorem Claims.looser_setUpgradeTicket (claims : Claims) (v : Waiter) (t : Option Ticket) :
    (setUpgradeTicket claims v t).Looser claims := by
  intro n c' hc'
  rw [setUpgradeTicket_get] at hc'
  split at hc'
  · obtain ⟨c, hc, rfl⟩ := Option.map_eq_some_iff.mp hc'
    exact ⟨c, hc, rfl, rfl, id, id⟩
  · exact ⟨c', hc', .refl c'⟩

/-- Records became looser or FREE and waiters left the queue, but the record that a waiter left names is as it was. -/
structure Loosened (claims : Claims) (queue : List Waiter) (claims' : Claims) (queue' : List Waiter) : Prop where
  sorted : claims'.Sorted
  queue : queue'.Sublist queue
  records : claims'.Looser claims
  named : ∀ w ∈ queue', ∀ n c, w.ownRecord = some n → claims.get n = some c → c.heldShared = true →
    c.holder = w.initiator → claims'.get n = some c

namespace Loosened

variable {claims : Claims} {queue queue' : List Waiter}

theorem sublist (hs : claims.Sorted) (hq : queue'.Sublist queue) : Loosened claims queue claims queue' where
  sorted := hs
  queue := hq
  records := .refl claims
  named _ _ _ _ _ hc _ _ := hc

theorem refl (hs : claims.Sorted) : Loosened claims queue claims queue :=
  sublist hs (List.Sublist.refl _)

theorem trans {claims' claims'' : Claims} {queue'' : List Waiter} (h : Loosened claims queue claims' queue')
    (h' : Loosened claims' queue' claims'' queue'') : Loosened claims queue claims'' queue'' where
  sorted := h'.sorted
  queue := h'.queue.trans h.queue
  records := h.records.trans h'.records
  named w hw n c hn hc hheld hholder :=
    h'.named w hw n c hn (h.named w (h'.queue.subset hw) n c hn hc hheld hholder) hheld hholder

/-- A record that is not HELD SHARED, so that no waiter stands on it, becomes looser. -/
theorem put (hs : claims.Sorted) {n : ClaimNo} {c c' : Claim} (hg : claims.get n = some c)
    (hc : c.heldShared = false) (hl : c.LoosensTo c') : Loosened claims queue (claims.put n c') queue where
  sorted := Claims.sorted_put hs n c'
  queue := List.Sublist.refl _
  records := Claims.looser_put hg hl
  named w _ m d _ hd hheld _ := by
    have hm : m ≠ n := by
      rintro rfl
      rw [hg] at hd
      cases hd
      simp [hc] at hheld
    rw [Claims.get_put, if_neg hm, hd]

/-- A record that no waiter left names becomes FREE. -/
theorem free (hs : claims.Sorted) {n : ClaimNo} (hq : queue'.Sublist queue)
    (hn : ∀ w ∈ queue', w.ownRecord ≠ some n) : Loosened claims queue (claims.free n) queue' where
  sorted := Claims.sorted_free hs n
  queue := hq
  records := Claims.looser_free claims n
  named w hw m c hm hc _ _ := by
    have hmn : m ≠ n := fun he => hn w hw (he ▸ hm)
    rw [Claims.get_free, if_neg hmn, hc]

/-- Every record becomes looser or FREE, the HELD SHARED records of the waiters left excepted. -/
theorem alter (hs : claims.Sorted) {f : Claim → Option Claim} (hf : ∀ c c', f c = some c' → c.LoosensTo c')
    (hq : queue'.Sublist queue)
    (hkept : ∀ w ∈ queue', ∀ c, c.heldShared = true → c.holder = w.initiator → f c = some c) :
    Loosened claims queue (claims.alter fun _ c => f c) queue' where
  sorted := Claims.sorted_alter hs _
  queue := hq
  records := Claims.looser_alter hs hf
  named w hw n c _ hc hheld hholder := by
    rw [Claims.get_alter hs, hc, Option.bind_some, hkept w hw c hheld hholder]

/-- Draining records alone change. -/
theorem alterDrains (hs : claims.Sorted) {f : Claim → Option Claim}
    (hf : ∀ c c', f c = some c' → c.LoosensTo c') (hheld : ∀ c, c.phase = .held → f c = some c) :
    Loosened claims queue (claims.alter fun _ c => f c) queue :=
  alter hs hf (List.Sublist.refl _) fun _ _ c hc _ => hheld c (Claim.heldShared_iff.mp hc).1

/-- The upgrade ticket changes on the record of a waiter that is apart from those left. -/
theorem setUpgradeTicket (hs : claims.Sorted) {v : Waiter} (t : Option Ticket) (hq : queue'.Sublist queue)
    (hv : ∀ w ∈ queue', v.Apart w) : Loosened claims queue (setUpgradeTicket claims v t) queue' where
  sorted := setUpgradeTicket_sorted hs v t
  queue := hq
  records := Claims.looser_setUpgradeTicket claims v t
  named w hw n c hn hc _ _ := by
    rw [setUpgradeTicket_get, if_neg fun hvn => hv w hw n hvn hn, hc]

end Loosened

/-! ### Waiters on records of their own -/

/-- A request that is an UPGRADE asks for a HELD SHARED record of its initiator that carries no ticket (R35). -/
def Waiter.MayName (claims : Claims) (v : Waiter) : Prop :=
  ∀ n, v.ownRecord = some n → ∃ c, claims.get n = some c ∧ c.heldShared = true
    ∧ c.holder = v.initiator ∧ c.span = v.span ∧ c.tag = v.tag ∧ c.upgradeTicket = none

/-- The table in its canonical form, and each UPGRADE waiter alone on a HELD SHARED record of its own (R8, R48). -/
structure NamedLaws (claims : Claims) (queue : List Waiter) : Prop where
  sorted : claims.Sorted
  named : ∀ w ∈ queue, w.Named claims
  apart : queue.Pairwise Waiter.Apart

/-- Two waiters on one record would both have the ticket it carries, and tickets are distinct (R65). -/
theorem Tables.WaitLaw.namedLaws {tb : Tables} (h : tb.WaitLaw) : NamedLaws tb.claims tb.queue where
  sorted := h.sorted
  named := h.upgrades.1
  apart := by
    have htickets : tb.queue.Pairwise fun v w => v.ticket ≠ w.ticket :=
      List.pairwise_map.mp (List.nodup_append.mp h.tickets.1).1
    refine htickets.imp_of_mem fun {v w} hv hw hne n hvn hwn => hne ?_
    obtain ⟨c, hc, -, -, -, -, hcv⟩ := h.upgrades.1 v hv n hvn
    obtain ⟨d, hd, -, -, -, -, hdw⟩ := h.upgrades.1 w hw n hwn
    obtain rfl : c = d := Option.some.inj (hc.symm.trans hd)
    exact Option.some.inj (hcv.symm.trans hdw)

namespace NamedLaws

variable {claims : Claims} {queue : List Waiter}

theorem apart_of_ne (h : NamedLaws claims queue) {v w : Waiter} (hv : v ∈ queue) (hw : w ∈ queue)
    (hne : v ≠ w) : v.Apart w :=
  have : Std.Symm Waiter.Apart := ⟨fun _ _ h => h.symm⟩
  h.apart.forall hv hw hne

/-- No waiter names a record that is not HELD SHARED. -/
theorem not_named_of_not_heldShared (h : NamedLaws claims queue) {n : ClaimNo} {c : Claim}
    (hg : claims.get n = some c) (hc : c.heldShared = false) : ∀ w ∈ queue, w.ownRecord ≠ some n := by
  intro w hw hn
  obtain ⟨d, hd, hheld, -⟩ := h.named w hw n hn
  obtain rfl : c = d := Option.some.inj (hg.symm.trans hd)
  simp [hc] at hheld

/-- Only the waiter whose ticket a record carries names the record. -/
theorem ticket_of_named (h : NamedLaws claims queue) {n : ClaimNo} {c : Claim} (hg : claims.get n = some c)
    {w : Waiter} (hw : w ∈ queue) (hn : w.ownRecord = some n) : c.upgradeTicket = some w.ticket := by
  obtain ⟨d, hd, -, -, -, -, ht⟩ := h.named w hw n hn
  obtain rfl : c = d := Option.some.inj (hg.symm.trans hd)
  exact ht

theorem not_named_of_no_ticket (h : NamedLaws claims queue) {n : ClaimNo} {c : Claim}
    (hg : claims.get n = some c) (ht : c.upgradeTicket = none) : ∀ w ∈ queue, w.ownRecord ≠ some n := by
  intro w hw hn
  rw [h.ticket_of_named hg hw hn] at ht
  cases ht

theorem nil : NamedLaws [] [] where
  sorted := List.Pairwise.nil
  named := fun _ h => nomatch h
  apart := List.Pairwise.nil

/-- The laws do not see what is left of a wait. -/
theorem lower (h : NamedLaws claims queue) : NamedLaws claims (queue.map Waiter.lower) where
  sorted := h.sorted
  named w hw := by
    obtain ⟨v, hv, rfl⟩ := List.mem_map.mp hw
    exact h.named v hv
  apart := List.pairwise_map.mpr h.apart

theorem loosened (h : NamedLaws claims queue) {claims' : Claims} {queue' : List Waiter}
    (hl : Loosened claims queue claims' queue') : NamedLaws claims' queue' where
  sorted := hl.sorted
  named w hw n hn := by
    obtain ⟨c, hc, hheld, hholder, hrest⟩ := h.named w (hl.queue.subset hw) n hn
    exact ⟨c, hl.named w hw n c hn hc hheld hholder, hheld, hholder, hrest⟩
  apart := h.apart.sublist hl.queue

/-- The grant of a request or a waiter that is apart from the waiters left. -/
theorem granted (h : NamedLaws claims queue) {w : Waiter} {n : ClaimNo} {c : Claim}
    (hg : grantedRecord claims w = some (n, c)) (ha : ∀ v ∈ queue, w.Apart v) :
    NamedLaws (claims.put n c) queue where
  sorted := Claims.sorted_put h.sorted n c
  named v hv m hm := by
    obtain ⟨d, hd, hrest⟩ := h.named v hv m hm
    have hmn : m ≠ n := by
      rintro rfl
      rcases grantedRecord_eq_some.mp hg with ⟨_, -, hl, -⟩ | ⟨hk, -⟩
      · rw [(Claims.lowestFree_eq_some.mp hl).1] at hd
        cases hd
      · exact ha v hv m (by simp [Waiter.ownRecord, hk]) hm
    exact ⟨d, by rw [Claims.get_put, if_neg hmn, hd], hrest⟩
  apart := h.apart

/-- A waiter in the queue is apart from those before it and those after it. -/
theorem apart_middle {before after : List Waiter} {w : Waiter} (h : NamedLaws claims (before ++ w :: after)) :
    ∀ v ∈ before ++ after, w.Apart v :=
  (List.pairwise_cons.mp ((List.pairwise_middle fun h => h.symm).mp h.apart)).1

theorem leave {before after : List Waiter} {w : Waiter} (h : NamedLaws claims (before ++ w :: after)) :
    NamedLaws claims (before ++ after) :=
  h.loosened (.sublist h.sorted ((List.sublist_cons_self w after).append_left before))

theorem grantPass {tb : Tables} (h : NamedLaws tb.claims tb.queue) :
    NamedLaws (grantPass tb).claims (grantPass tb).queue := by
  refine grantPass_keeps (P := fun tb' => NamedLaws tb'.claims tb'.queue) ?_ tb h
  intro tb' before w after n c hq h' hj
  rw [hq] at h'
  exact h'.leave.granted (judgeWaiter_eq_some.mp hj).2 h'.apart_middle

/-- A new waiter is queued. -/
theorem queued (h : NamedLaws claims queue) {v : Waiter} (hv : v.MayName claims) :
    NamedLaws (setUpgradeTicket claims v (some v.ticket)) (placeWaiter queue v) := by
  have hapart : ∀ w ∈ queue, v.Apart w := by
    intro w hw n hn
    obtain ⟨c, hc, -, -, -, -, ht⟩ := hv n hn
    exact h.not_named_of_no_ticket hc ht w hw
  have hold := h.loosened (.setUpgradeTicket h.sorted (some v.ticket) (List.Sublist.refl _) hapart)
  have hperm := placeWaiter_perm queue v
  refine ⟨hold.sorted, fun w hw => ?_, ?_⟩
  · rcases List.mem_cons.mp (hperm.mem_iff.mp hw) with rfl | hw
    · intro n hn
      obtain ⟨c, hc, hheld, hholder, hspan, htag, -⟩ := hv n hn
      exact ⟨{ c with upgradeTicket := some w.ticket },
        by rw [setUpgradeTicket_get, if_pos hn, hc, Option.map_some], hheld, hholder, hspan, htag, rfl⟩
    · exact hold.named w hw
  · exact (hperm.pairwise_iff fun h => h.symm).mpr (List.pairwise_cons.mpr ⟨hapart, h.apart⟩)

end NamedLaws

/-! ### What an event does to the queue -/

/-- What one event makes of the claim table and the queue. -/
inductive EngineMove (claims : Claims) (queue : List Waiter) : Claims → List Waiter → Prop where
  /-- Every waiter stays, and records only change so that they conflict with the same requests. -/
  | drained {claims' : Claims} (hl : Loosened claims queue claims' queue) (ht : claims'.Tighter claims) :
      EngineMove claims queue claims' queue
  /-- A request is granted at once: a CLAIM that conflicts with no waiter, or an UPGRADE that closes no cycle. -/
  | granted {w : Waiter} {n : ClaimNo} {c : Claim} (hg : grantedRecord claims w = some (n, c))
      (ha : ∀ v ∈ queue, w.Apart v)
      (hc : (w.isClaim = true ∧ contended claims queue w = false)
        ∨ hasCycle (waitPairs (claims.put n c) queue) = false) :
      EngineMove claims queue (claims.put n c) queue
  /-- A blocked request that closes no cycle is queued. -/
  | queued {v : Waiter} (hb : blocked claims (aheadOf queue v) v = true) (hv : v.MayName claims)
      (hc : hasCycle (waitPairs claims (placeWaiter queue v)) = false) :
      EngineMove claims queue (setUpgradeTicket claims v (some v.ticket)) (placeWaiter queue v)
  /-- Records loosen or waiters leave, and a grant pass runs. -/
  | passed {tb : Tables} (hl : Loosened claims queue tb.claims tb.queue) :
      EngineMove claims queue (grantPass tb).claims (grantPass tb).queue
  /-- Every record is FREE and the queue empty. -/
  | emptied : EngineMove claims queue [] []

theorem EngineMove.none {claims : Claims} (hs : claims.Sorted) (queue : List Waiter) :
    EngineMove claims queue claims queue :=
  .drained (.refl hs) (.refl claims)

/-- A record that is not HELD SHARED moves on in a drain or into one. -/
theorem EngineMove.put {claims : Claims} {queue : List Waiter} (hs : claims.Sorted) {n : ClaimNo} {c c' : Claim}
    (hg : claims.get n = some c) (hc : c.heldShared = false) (hl : c.LoosensTo c')
    (hc' : c'.heldShared = false) : EngineMove claims queue (claims.put n c') queue := by
  refine .drained (.put hs hg hc hl) (Claims.tighter_put fun d hd => ?_)
  obtain rfl : c = d := Option.some.inj (hg.symm.trans hd)
  exact ⟨hl.span, fun h => by simp [hc'] at h⟩

theorem NamedLaws.move {claims claims' : Claims} {queue queue' : List Waiter} (h : NamedLaws claims queue)
    (hm : EngineMove claims queue claims' queue') : NamedLaws claims' queue' := by
  cases hm with
  | drained hl _ => exact h.loosened hl
  | granted hg ha _ => exact h.granted hg ha
  | queued _ hv _ => exact h.queued hv
  | passed hl => exact (h.loosened hl).grantPass
  | emptied => exact .nil

@[simp] theorem grantPassIf_true (tb : Tables) : grantPassIf true tb = grantPass tb := rfl
@[simp] theorem grantPassIf_false (tb : Tables) : grantPassIf false tb = tb := rfl

/-! ### The moves of the requests -/

theorem judgeClaim_move {tb : Tables} (h : NamedLaws tb.claims tb.queue) (cfg : ConfigRegs) (i : Initiator)
    (w : RequestWords) : EngineMove tb.claims tb.queue (judgeClaim cfg i w tb).1.claims
      (judgeClaim cfg i w tb).1.queue := by
  have hown : ∀ mode n, (claimWaiter tb i mode w).ownRecord ≠ some n := nofun
  rcases judgeClaim_cases cfg i w tb with
    ht | ⟨mode, -, -, -, -, ⟨n, hc, hl, ht⟩ | ⟨hb, -, hp, ht⟩⟩ <;> rw [ht]
  · exact .none h.sorted _
  · exact .granted (w := claimWaiter tb i mode w) (grantedRecord_eq_some.mpr (Or.inl ⟨mode, rfl, hl, rfl⟩))
      (fun _ _ m hm => absurd hm (hown mode m)) (Or.inl ⟨rfl, hc⟩)
  · exact .queued hb (fun n hn => absurd hn (hown mode n)) (placementRefusal_eq_none.mp hp).2.2

/-- The record of an UPGRADE that is served carries no ticket, so no waiter names it. -/
theorem judgeUpgrade_move {tb : Tables} (h : NamedLaws tb.claims tb.queue) (cfg : ConfigRegs) (i : Initiator)
    (w : RequestWords) : EngineMove tb.claims tb.queue (judgeUpgrade cfg i w tb).1.claims
      (judgeUpgrade cfg i w tb).1.queue := by
  rcases judgeUpgrade_cases cfg i w tb with
    ht | ⟨n, c, hheld, htick, ⟨-, hcycle, ht⟩ | ⟨hb, -, hp, ht⟩⟩ <;> rw [ht]
  · exact .none h.sorted _
  · refine .granted (w := upgradeWaiter tb i n c w)
      (grantedRecord_eq_some.mpr (Or.inr ⟨rfl, c, hheld.record, rfl⟩)) ?_ (Or.inr hcycle)
    rintro v hv _ ⟨⟩
    exact h.not_named_of_no_ticket hheld.record htick v hv
  · refine .queued (blocked_iff.mpr (Or.inl (contended_iff.mp hb))) ?_ (placementRefusal_eq_none.mp hp).2.2
    rintro _ ⟨⟩
    exact ⟨c, hheld.record, hheld.heldShared, hheld.holder, rfl, rfl, htick⟩

theorem judgeDowngrade_move {tb : Tables} (h : NamedLaws tb.claims tb.queue) (cfg : ConfigRegs) (i : Initiator)
    (w : RequestWords) : EngineMove tb.claims tb.queue (judgeDowngrade cfg i w tb).1.claims
      (judgeDowngrade cfg i w tb).1.queue := by
  rcases judgeDowngrade_cases cfg i w tb with ht | ⟨n, c, hheld, ht⟩ <;> rw [ht]
  · exact .none h.sorted _
  · have hc := hheld.not_heldShared
    exact .put h.sorted hheld.record hc
      ⟨rfl, rfl, fun _ => by simp [Claim.live, hheld.phase], fun hs => by simp [hc] at hs⟩
      (by simp [Claim.heldShared])

/-- The waiter on a record that is released is withdrawn, so no waiter left names the record (R9, R40). -/
theorem releaseShared_move {tb : Tables} (h : NamedLaws tb.claims tb.queue) {n : ClaimNo} {c : Claim}
    (hg : tb.claims.get n = some c) (i : Initiator) :
    EngineMove tb.claims tb.queue (releaseShared tb i n c).claims (releaseShared tb i n c).queue := by
  refine .passed ?_
  cases ht : c.upgradeTicket with
  | none => exact .free h.sorted (List.Sublist.refl _) (h.not_named_of_no_ticket hg ht)
  | some t =>
    refine .free h.sorted List.filter_sublist fun w hw hn => ?_
    obtain ⟨hwq, hwt⟩ := List.mem_filter.mp hw
    have hcarried := h.ticket_of_named hg hwq hn
    rw [ht] at hcarried
    cases hcarried
    simp at hwt

theorem judgeRelease_move {tb : Tables} (h : NamedLaws tb.claims tb.queue) (cfg : ConfigRegs) (i : Initiator)
    (w : RequestWords) : EngineMove tb.claims tb.queue (judgeRelease cfg i w tb).1.claims
      (judgeRelease cfg i w tb).1.queue := by
  have hout : ∀ {c : Claim} {stage : Stage}, c.heldShared = false →
      c.LoosensTo { c with phase := .drainingOut stage } := fun hc =>
    ⟨rfl, rfl, fun hl => by simp [Claim.live] at hl, fun hs => by simp [hc] at hs⟩
  rcases judgeRelease_cases cfg i w tb with
    ht | ⟨n, c, hheld, ht⟩ | ⟨n, c, hheld, ht⟩ | ⟨n, c, stage, hdrain, ht⟩ <;> rw [ht]
  · exact .none h.sorted _
  · exact releaseShared_move h hheld.record i
  · exact .put h.sorted hheld.record hheld.not_heldShared (hout hheld.not_heldShared)
      (by simp [Claim.heldShared])
  · exact .put h.sorted hdrain.record hdrain.not_heldShared (hout hdrain.not_heldShared)
      (by simp [Claim.heldShared])

/-- A cancelled waiter was apart from every waiter with another ticket. -/
theorem judgeCancel_move {tb : Tables} (h : NamedLaws tb.claims tb.queue) (cfg : ConfigRegs) (i : Initiator)
    (w : RequestWords) : EngineMove tb.claims tb.queue (judgeCancel cfg i w tb).1.claims
      (judgeCancel cfg i w tb).1.queue := by
  rcases judgeCancel_cases cfg i w tb with ht | ⟨v, hv, -, -, ht⟩ <;> rw [ht]
  · exact .none h.sorted _
  · refine .passed (.setUpgradeTicket h.sorted none List.filter_sublist fun x hx => ?_)
    obtain ⟨hxq, hxt⟩ := List.mem_filter.mp hx
    refine h.apart_of_ne hv hxq ?_
    rintro rfl
    simp at hxt

theorem judgeTakeNotice_move {tb : Tables} (h : NamedLaws tb.claims tb.queue) (cfg : ConfigRegs) (i : Initiator)
    (w : RequestWords) : EngineMove tb.claims tb.queue (judgeTakeNotice cfg i w tb).1.claims
      (judgeTakeNotice cfg i w tb).1.queue := by
  rcases judgeTakeNotice_cases cfg i w tb with ht | ⟨n, rest, -, ht⟩ <;> rw [ht] <;> exact .none h.sorted _

theorem judgeRegister_move {tb : Tables} (h : NamedLaws tb.claims tb.queue) (cfg : ConfigRegs) (i : Initiator)
    (w : RequestWords) : EngineMove tb.claims tb.queue (judgeRegister cfg i w tb).1.claims
      (judgeRegister cfg i w tb).1.queue := by
  rcases judgeRegister_cases cfg i w tb with ⟨-, ht⟩ | ⟨-, ht⟩ <;> rw [ht] <;> exact .none h.sorted _

/-! ### The moves out of ACTIVE -/

theorem disposeRecord_loosens (i : Initiator) (c c' : Claim) (h : disposeRecord i c = some c') :
    c.LoosensTo c' := by
  unfold disposeRecord at h
  split at h
  · split at h
    · cases h
    · rename_i hp hm
      cases h
      exact ⟨rfl, rfl, fun hl => by simp [Claim.live] at hl, fun hs => by simp [Claim.heldShared, hm] at hs⟩
    · rename_i stage hp
      cases h
      exact ⟨rfl, rfl, fun hl => by simp [Claim.live] at hl, fun hs => by simp [Claim.heldShared, hp] at hs⟩
    all_goals
      cases h
      exact .refl c
  · cases h
    exact .refl c

theorem disposeRecord_of_not_live {i : Initiator} {c : Claim} (h : c.live = false) :
    disposeRecord i c = some c := by
  unfold disposeRecord
  split
  · split <;> simp_all [Claim.live]
  · rfl

/-- An initiator leaves with its waiters, so the records that the others name stay (R77, R81). -/
theorem leaveActive_loosened {tb : Tables} (hs : tb.claims.Sorted) (i : Initiator) (st : InitState) :
    Loosened tb.claims tb.queue (leaveActive tb i st).claims (leaveActive tb i st).queue := by
  refine .alter hs (disposeRecord_loosens i) List.filter_sublist fun w hw c _ hholder => ?_
  have hwi : w.initiator ≠ i := by simpa using (List.mem_filter.mp hw).2
  exact disposeRecord_of_holder_ne (hholder ▸ hwi)

/-- An initiator leaves: with a live record or a waiter its leaving runs a grant pass, and without it changes neither
the records nor the queue (R54). -/
theorem leaveActive_move {tb : Tables} (hs : tb.claims.Sorted) (i : Initiator) (st : InitState) :
    EngineMove tb.claims tb.queue (grantPassIf (hasStake tb i) (leaveActive tb i st)).claims
      (grantPassIf (hasStake tb i) (leaveActive tb i st)).queue := by
  have hl := leaveActive_loosened hs i st
  by_cases hstake : hasStake tb i = true
  · rw [hstake, grantPassIf_true]
    exact .passed hl
  · have hnone : ¬HasStake tb i := fun h => hstake (hasStake_iff.mpr h)
    have hqueue : (leaveActive tb i st).queue = tb.queue :=
      List.filter_eq_self.mpr fun w hw => by simpa using fun hi => hnone (Or.inr ⟨w, hw, hi⟩)
    have hrecord : ∀ e ∈ tb.claims, disposeRecord i e.2 = some e.2 := by
      intro e he
      by_cases hi : e.2.holder = i
      · exact disposeRecord_of_not_live (Bool.eq_false_iff.mpr fun hlive => hnone (Or.inl ⟨e, he, hlive, hi⟩))
      · exact disposeRecord_of_holder_ne hi
    rw [hqueue] at hl
    rw [Bool.eq_false_iff.mpr hstake, grantPassIf_false, hqueue]
    exact .drained hl (Claims.tighter_alter hs fun e he => ⟨e.2, hrecord e he, .refl _⟩)

/-- Every initiator request past its gate. -/
theorem judged_move {tb : Tables} (h : NamedLaws tb.claims tb.queue) {k : RequestKind} {judge : InitiatorJudge}
    (hm : (k, judge) ∈ initiatorJudges) (cfg : ConfigRegs) (i : Initiator) (w : RequestWords) :
    EngineMove tb.claims tb.queue (judge cfg i w tb).1.claims (judge cfg i w tb).1.queue := by
  simp only [initiatorJudges, List.mem_cons, List.not_mem_nil, or_false, Prod.mk.injEq] at hm
  rcases hm with ⟨-, rfl⟩ | ⟨-, rfl⟩ | ⟨-, rfl⟩ | ⟨-, rfl⟩ | ⟨-, rfl⟩ | ⟨-, rfl⟩ | ⟨-, rfl⟩ | ⟨-, rfl⟩
    | ⟨-, rfl⟩ | ⟨-, rfl⟩
  · exact judgeRegister_move h cfg i w
  · exact leaveActive_move h.sorted i .unregistered
  · exact .none h.sorted _
  · exact judgeClaim_move h cfg i w
  · exact judgeUpgrade_move h cfg i w
  · exact judgeDowngrade_move h cfg i w
  · exact judgeRelease_move h cfg i w
  · exact judgeCancel_move h cfg i w
  · exact judgeTakeNotice_move h cfg i w
  · rw [judgeLookup_tables]
    exact .none h.sorted _

/-! ### The move of a tick -/

/-- Waiters expire that have left the queue and are apart from those in it. -/
theorem expireWaiters_loosened {tb : Tables} (hs : tb.claims.Sorted) (expired : List Waiter)
    (ha : ∀ v ∈ expired, ∀ w ∈ tb.queue, v.Apart w) :
    Loosened tb.claims tb.queue (expired.foldl expireWaiter tb).claims (expired.foldl expireWaiter tb).queue := by
  induction expired generalizing tb with
  | nil => exact .refl hs
  | cons v rest ih =>
    obtain ⟨hv, hrest⟩ := List.forall_mem_cons.mp ha
    have hfirst : Loosened tb.claims tb.queue (expireWaiter tb v).claims (expireWaiter tb v).queue :=
      .setUpgradeTicket hs none (List.Sublist.refl _) hv
    exact hfirst.trans (ih (tb := expireWaiter tb v) hfirst.sorted hrest)

/-- The expiry of a tick, from the queue with every wait lowered (R57). -/
theorem tickExpiry_loosened {tb : Tables} (h : NamedLaws tb.claims tb.queue) :
    Loosened tb.claims (tb.queue.map Waiter.lower) (tickExpiry tb).claims (tickExpiry tb).queue := by
  refine .trans (queue' := (tb.queue.filter fun w => !w.expires).map Waiter.lower)
    (.sublist h.sorted (List.filter_sublist.map _)) (expireWaiters_loosened
      (tb := { tb with queue := (tb.queue.filter fun w => !w.expires).map Waiter.lower }) h.sorted _ ?_)
  intro v hv w hw
  obtain ⟨u, hu, rfl⟩ := List.mem_map.mp hw
  obtain ⟨hvq, hve⟩ := List.mem_filter.mp hv
  obtain ⟨huq, hue⟩ := List.mem_filter.mp hu
  have hapart : v.Apart u := h.apart_of_ne hvq huq (by rintro rfl; simp [hve] at hue)
  exact hapart

/-- Leases end or are lowered (R80 to R82). -/
theorem tickLeases_loosened {tb : Tables} (hs : tb.claims.Sorted) :
    Loosened tb.claims tb.queue (tickLeases tb).claims (tickLeases tb).queue := by
  refine List.foldlRecOn (motive := fun tb' : Tables => Loosened tb.claims tb.queue tb'.claims tb'.queue)
    (List.finRange 8) tickLease (.refl hs) fun tb' h i _ => ?_
  rcases tickLease_cases tb' i with hl | ⟨hc, hq⟩
  · rw [hl]
    exact h.trans (leaveActive_loosened h.sorted i .lapsed)
  · rw [hc, hq]
    exact h

/-- A lease that does not end is lowered, and nothing else changes. -/
theorem tickLease_of_not_leaseEnds {tb : Tables} {i : Initiator} (h : leaseEnds tb i = false) :
    (tickLease tb i).claims = tb.claims ∧ (tickLease tb i).queue = tb.queue
      ∧ ∀ j, j ≠ i → leaseEnds (tickLease tb i) j = leaseEnds tb j := by
  unfold tickLease
  split
  · rename_i lease hst
    have hlease : ¬lease ≤ 1 := by
      rw [leaseEnds, hst] at h
      simpa using h
    rw [if_neg hlease]
    refine ⟨rfl, rfl, fun j hj => ?_⟩
    simp [leaseEnds, Fin.val_inj, hj.symm]
  all_goals exact ⟨rfl, rfl, fun _ _ => rfl⟩

theorem tickLeases_of_no_lease_ends {tb : Tables} (h : ∀ i, leaseEnds tb i = false) :
    (tickLeases tb).claims = tb.claims ∧ (tickLeases tb).queue = tb.queue := by
  have hfold : ∀ (l : List Initiator) (tb' : Tables), l.Nodup → (∀ i ∈ l, leaseEnds tb' i = false) →
      (l.foldl tickLease tb').claims = tb'.claims ∧ (l.foldl tickLease tb').queue = tb'.queue := by
    intro l
    induction l with
    | nil => exact fun _ _ _ => ⟨rfl, rfl⟩
    | cons i rest ih =>
      intro tb' hnodup hends
      obtain ⟨hi, hrest⟩ := List.nodup_cons.mp hnodup
      obtain ⟨hc, hq, hothers⟩ := tickLease_of_not_leaseEnds (hends i (by simp))
      obtain ⟨hc', hq'⟩ := ih (tickLease tb' i) hrest fun j hj => by
        rw [hothers j (by rintro rfl; exact hi hj)]
        exact hends j (by simp [hj])
      exact ⟨hc'.trans hc, hq'.trans hq⟩
  exact hfold _ tb (List.nodup_finRange 8) fun i _ => h i

/-- A tick on which no waiter expires lowers every wait. -/
theorem tickExpiry_of_none_expires {tb : Tables} (h : ∀ w ∈ tb.queue, w.expires = false) :
    tickExpiry tb = { tb with queue := tb.queue.map Waiter.lower } := by
  have hexpired : tb.queue.filter Waiter.expires = [] := by
    simpa [List.filter_eq_nil_iff] using h
  have hstay : (tb.queue.filter fun w => !w.expires) = tb.queue :=
    List.filter_eq_self.mpr fun w hw => by simp [h w hw]
  rw [tickExpiry, hexpired, hstay, List.foldl_nil]

/-- A tick runs a grant pass if a waiter expires or an initiator lapses, and else lowers the counts alone (R86). -/
theorem tickTables_move {tb : Tables} (h : NamedLaws tb.claims tb.queue) :
    EngineMove tb.claims (tb.queue.map Waiter.lower) (tickTables tb).claims (tickTables tb).queue := by
  have hl := (tickExpiry_loosened h).trans (tickLeases_loosened (tickExpiry_loosened h).sorted)
  unfold tickTables
  by_cases hpass : (tb.queue.any Waiter.expires || (List.finRange 8).any (leaseEnds tb)) = true
  · rw [hpass, grantPassIf_true]
    exact .passed hl
  · obtain ⟨hexpires, hends⟩ : (∀ w ∈ tb.queue, w.expires = false) ∧ ∀ i, leaseEnds tb i = false := by
      simpa using hpass
    have hleases := tickLeases_of_no_lease_ends (tb := tickExpiry tb) fun i => by
      rw [tickExpiry_of_none_expires hexpires]
      exact hends i
    rw [tickExpiry_of_none_expires hexpires] at hleases ⊢
    rw [Bool.eq_false_iff.mpr hpass, grantPassIf_false, hleases.1, hleases.2]
    exact .none h.sorted _

/-! ### The moves of the fences -/

theorem issueDrain_loosens (i : Initiator) (c : Claim) : c.LoosensTo (issueDrain i c) := by
  unfold issueDrain
  split
  · split
    · rename_i hp
      exact ⟨rfl, rfl, fun _ => by simp [Claim.live, hp], fun hs => by simp [Claim.heldShared, hp] at hs⟩
    · rename_i hp
      exact ⟨rfl, rfl, fun hl => by simp [Claim.live] at hl, fun hs => by simp [Claim.heldShared, hp] at hs⟩
    all_goals exact .refl c
  · exact .refl c

theorem issueDrain_tightens (i : Initiator) (c : Claim) : c.TightensTo (issueDrain i c) := by
  unfold issueDrain
  split
  · split
    · exact ⟨rfl, fun hs => by simp [Claim.heldShared] at hs⟩
    · exact ⟨rfl, fun hs => by simp [Claim.heldShared] at hs⟩
    all_goals exact .refl c
  · exact .refl c

/-- A drain that fails goes to QUARANTINED from either draining phase (R15). -/
theorem failDrain_cases (i : Initiator) (c : Claim) :
    failDrain i c = c ∨ (c.heldShared = false ∧ failDrain i c = { c with phase := .quarantined }) := by
  unfold failDrain
  split
  · split
    · rename_i hp
      exact Or.inr ⟨by simp [Claim.heldShared, hp], rfl⟩
    · rename_i hp
      exact Or.inr ⟨by simp [Claim.heldShared, hp], rfl⟩
    all_goals exact Or.inl rfl
  · exact Or.inl rfl

theorem failDrain_loosens (i : Initiator) (c : Claim) : c.LoosensTo (failDrain i c) := by
  rcases failDrain_cases i c with h | ⟨hc, h⟩ <;> rw [h]
  · exact .refl c
  · exact ⟨rfl, rfl, fun hl => by simp [Claim.live] at hl, fun hs => by simp [hc] at hs⟩

theorem failDrain_tightens (i : Initiator) (c : Claim) : c.TightensTo (failDrain i c) := by
  rcases failDrain_cases i c with h | ⟨-, h⟩ <;> rw [h]
  · exact .refl c
  · exact ⟨rfl, fun hs => by simp [Claim.heldShared] at hs⟩

theorem finishDrain_loosens (i : Initiator) (c c' : Claim) (h : finishDrain i c = some c') : c.LoosensTo c' := by
  unfold finishDrain at h
  split at h
  · split at h
    · cases h
    · rename_i hp
      cases h
      exact ⟨rfl, rfl, fun _ => by simp [Claim.live, hp], fun _ => by simp [Claim.heldShared]⟩
    all_goals
      cases h
      exact .refl c
  · cases h
    exact .refl c

theorem finishDrain_of_not_issuedDrain {i : Initiator} {c : Claim} (h : c.holder = i → c.issuedDrain = false) :
    finishDrain i c = some c := by
  unfold finishDrain
  split
  · rename_i hi
    split <;> simp_all [Claim.issuedDrain]
  · rfl

theorem issueTables_move {tb : Tables} (hs : tb.claims.Sorted) (i : Initiator) (rest : List Initiator) :
    EngineMove tb.claims tb.queue (issueTables tb i rest).claims (issueTables tb i rest).queue :=
  .drained
    (.alterDrains hs (f := fun c => some (issueDrain i c))
      (fun c _ hc => Option.some.inj hc ▸ issueDrain_loosens i c)
      fun _ hc => congrArg some (issueDrain_of_held hc))
    (Claims.tighter_alter hs (f := fun c => some (issueDrain i c)) fun e _ => ⟨_, rfl, issueDrain_tightens i e.2⟩)

/-- A change of drains that runs a grant pass, or else leaves each record no looser. -/
theorem EngineMove.alterDrains {tb : Tables} (hs : tb.claims.Sorted) {f : Claim → Option Claim}
    (hf : ∀ c c', f c = some c' → c.LoosensTo c') (hheld : ∀ c, c.phase = .held → f c = some c) {b : Bool}
    (ht : b = false → ∀ e ∈ tb.claims, ∃ c', f e.2 = some c' ∧ e.2.TightensTo c') :
    EngineMove tb.claims tb.queue (grantPassIf b { tb with claims := tb.claims.alter fun _ c => f c }).claims
      (grantPassIf b { tb with claims := tb.claims.alter fun _ c => f c }).queue := by
  have hl : Loosened tb.claims tb.queue (tb.claims.alter fun _ c => f c) tb.queue := .alterDrains hs hf hheld
  cases b with
  | true => exact .passed (tb := { tb with claims := tb.claims.alter fun _ c => f c }) hl
  | false => exact .drained hl (Claims.tighter_alter hs (ht rfl))

theorem doneOutcome_move {tb : Tables} (hs : tb.claims.Sorted) (i : Initiator) :
    EngineMove tb.claims tb.queue (doneOutcome tb i).claims (doneOutcome tb i).queue := by
  refine .alterDrains hs (finishDrain_loosens i) (fun _ => finishDrain_of_held) fun hnone e he =>
    ⟨e.2, finishDrain_of_not_issuedDrain fun hi => ?_, .refl _⟩
  have hall : ∀ e ∈ tb.claims, e.2.issuedDrain = true → e.2.holder ≠ i := by
    simpa [hasIssuedDrain] using hnone
  exact Bool.eq_false_iff.mpr fun hissued => hall e he hissued hi

theorem failedOutcome_move {tb : Tables} (hs : tb.claims.Sorted) (i : Initiator) :
    EngineMove tb.claims tb.queue (failedOutcome tb i).claims (failedOutcome tb i).queue :=
  .alterDrains hs (f := fun c => some (failDrain i c))
    (fun c _ hc => Option.some.inj hc ▸ failDrain_loosens i c) (fun _ hc => congrArg some (failDrain_of_held hc))
    fun _ e _ => ⟨_, rfl, failDrain_tightens i e.2⟩

/-! ### The move of every event -/

/-- Every event is one move, from the queue as it stood or, in a tick, with every wait lowered. -/
theorem TablesStep.move {s : State} {tb : Tables} (h : NamedLaws s.tables.claims s.tables.queue)
    (hs : TablesStep s tb) :
    EngineMove s.tables.claims s.tables.queue tb.claims tb.queue
      ∨ EngineMove s.tables.claims (s.tables.queue.map Waiter.lower) tb.claims tb.queue := by
  cases hs with
  | ticked _ => exact Or.inr (tickTables_move h)
  | keep => exact Or.inl (.none h.sorted _)
  | taken i _ =>
    rw [State.afterTake_claims, State.afterTake_queue]
    exact Or.inl (.none h.sorted _)
  | judged k judge i w _ hm _ =>
    have hmove := judged_move (tb := s.afterTake i)
      (by rwa [State.afterTake_claims, State.afterTake_queue]) hm s.config i w
    rw [State.afterTake_claims, State.afterTake_queue] at hmove
    exact Or.inl hmove
  | evicted i _ _ => exact Or.inl (leaveActive_move h.sorted i .lapsed)
  | cleared n c _ hg hq =>
    have hc : c.heldShared = false := by simp [Claim.heldShared, hq]
    exact Or.inl (.passed (.free h.sorted (List.Sublist.refl _) (h.not_named_of_not_heldShared hg hc)))
  | tornDown _ => exact Or.inl .emptied
  | issued i rest _ _ _ => exact Or.inl (issueTables_move h.sorted i rest)
  | done i _ _ => exact Or.inl (doneOutcome_move h.sorted i)
  | failed i _ _ => exact Or.inl (failedOutcome_move h.sorted i)
  | reset present => exact Or.inl .emptied

/-- What does not see the waits that are left, and is kept by every move, is kept by every step. -/
theorem step_keeps_of_moves {P : Claims → List Waiter → Prop}
    (hlower : ∀ claims queue, P claims queue → P claims (queue.map Waiter.lower))
    (hmove : ∀ claims queue claims' queue', NamedLaws claims queue → P claims queue →
      EngineMove claims queue claims' queue' → P claims' queue')
    {s t : State} (hn : NamedLaws s.tables.claims s.tables.queue) (hp : P s.tables.claims s.tables.queue)
    (hstep : step s = .next t) : P t.tables.claims t.tables.queue := by
  have hevent : ∀ (x : State) (tb : Tables), TablesStep x tb →
      NamedLaws x.tables.claims x.tables.queue ∧ P x.tables.claims x.tables.queue →
      NamedLaws tb.claims tb.queue ∧ P tb.claims tb.queue := by
    intro x tb hx ⟨hxn, hxp⟩
    rcases hx.move hxn with hm | hm
    · exact ⟨hxn.move hm, hmove _ _ _ _ hxn hxp hm⟩
    · exact ⟨hxn.lower.move hm, hmove _ _ _ _ hxn.lower (hlower _ _ hxp) hm⟩
  obtain ⟨s', u, hs', htime, htables⟩ := step_tables hstep
  have hs : NamedLaws s'.tables.claims s'.tables.queue ∧ P s'.tables.claims s'.tables.queue := by
    rw [hs']
    exact ⟨hn, hp⟩
  have hu := htime.preserve (P := fun x => NamedLaws x.tables.claims x.tables.queue
    ∧ P x.tables.claims x.tables.queue) (fun x y he hx => hevent x y.tables he.tables hx) hs
  exact (hevent u t.tables htables hu).2

/-! ### Every waiter blocked (R53) -/

/-- A waiter stays blocked where the table tightens and more waiters stand ahead. -/
theorem blocked_of_tighter {claims claims' : Claims} (hs : claims.Sorted) (ht : claims'.Tighter claims)
    {earlier earlier' : List Waiter} (he : earlier ⊆ earlier') {w : Waiter}
    (hb : blocked claims earlier w = true) : blocked claims' earlier' w = true := by
  rw [blocked_iff] at hb ⊢
  refine hb.imp ?_ (And.imp_right fun hfull n hn => ?_)
  · rintro (⟨⟨n, c⟩, hc, hown, hconf⟩ | ⟨v, hv, hconf⟩)
    · obtain ⟨c', hc', htight⟩ := ht n c ((Claims.get_eq_some_iff hs).mpr hc)
      exact Or.inl ⟨(n, c'), Claims.mem_of_get hc', hown, htight.conflicts hconf⟩
    · exact Or.inr ⟨v, he hv, hconf⟩
  · obtain ⟨c, hc⟩ := Option.ne_none_iff_exists'.mp (hfull n)
    obtain ⟨c', hc', -⟩ := ht n c hc
    rw [hn] at hc'
    cases hc'

theorem AllBlocked.tighter {claims claims' : Claims} (hs : claims.Sorted) (ht : claims'.Tighter claims)
    {queue earlier earlier' : List Waiter} (he : earlier ⊆ earlier') (h : AllBlocked claims earlier queue) :
    AllBlocked claims' earlier' queue := by
  induction queue generalizing earlier earlier' with
  | nil => trivial
  | cons w rest ih =>
    have hnext : earlier ++ [w] ⊆ earlier' ++ [w] :=
      List.append_subset.mpr ⟨List.Subset.trans he (List.subset_append_left _ _), List.subset_append_right _ _⟩
    exact ⟨blocked_of_tighter hs ht he h.1, ih hnext h.2⟩

theorem allBlocked_append {claims : Claims} {earlier queue rest : List Waiter} :
    AllBlocked claims earlier (queue ++ rest) ↔
      AllBlocked claims earlier queue ∧ AllBlocked claims (earlier ++ queue) rest := by
  induction queue generalizing earlier with
  | nil => simp [AllBlocked]
  | cons w queue ih => simp [AllBlocked, ih, and_assoc]

theorem blocked_lower (claims : Claims) (earlier : List Waiter) (w : Waiter) :
    blocked claims (earlier.map Waiter.lower) w.lower = blocked claims earlier w := by
  simp only [blocked, contended, List.any_map]
  rfl

theorem AllBlocked.lower {claims : Claims} {earlier queue : List Waiter} (h : AllBlocked claims earlier queue) :
    AllBlocked claims (earlier.map Waiter.lower) (queue.map Waiter.lower) := by
  induction queue generalizing earlier with
  | nil => trivial
  | cons w rest ih =>
    refine ⟨(blocked_lower claims earlier w).trans h.1, ?_⟩
    simpa using ih h.2

/-- A waiter that a pass does not grant is blocked, where the record that an UPGRADE names is not FREE (R50). -/
theorem blocked_of_judgeWaiter_eq_none {claims : Claims} {earlier : List Waiter} {w : Waiter}
    (hn : ∀ n, w.ownRecord = some n → claims.get n ≠ none) (hj : judgeWaiter claims earlier w = none) :
    blocked claims earlier w = true := by
  rw [blocked]
  rcases judgeWaiter_eq_none.mp hj with hc | hg
  · rw [hc, Bool.true_or]
  · cases hk : w.kind with
    | claim mode =>
      have hfull : claims.lowestFree = none := by simpa [grantedRecord, hk] using hg
      simp [Waiter.isClaim, hk, hfull]
    | upgrade n =>
      have hfree : claims.get n = none := by simpa [grantedRecord, hk] using hg
      exact absurd hfree (hn n (by simp [Waiter.ownRecord, hk]))

/-- A pass leaves only blocked waiters: each was blocked when it was judged, and the grants after it only tighten the
table (R53). -/
theorem grantPass_allBlocked {tb : Tables} (h : NamedLaws tb.claims tb.queue) :
    AllBlocked (grantPass tb).claims [] (grantPass tb).queue := by
  refine (grantPass_induction (P := fun tb' rest => tb'.claims.Sorted ∧ AllBlocked tb'.claims [] tb'.queue
    ∧ ∀ w ∈ rest, ∀ n, w.ownRecord = some n → tb'.claims.get n ≠ none) ?_ ?_ tb ?_).2.1
  · intro tb' w rest ⟨hs, hall, hnamed⟩ hj
    obtain ⟨hw, hrest⟩ := List.forall_mem_cons.mp hnamed
    exact ⟨hs, allBlocked_append.mpr ⟨hall, blocked_of_judgeWaiter_eq_none hw hj, trivial⟩, hrest⟩
  · intro tb' w rest n c ⟨hs, hall, hnamed⟩ hj
    obtain ⟨-, hrest⟩ := List.forall_mem_cons.mp hnamed
    have htight := Claims.tighter_granted (judgeWaiter_eq_some.mp hj).2
    refine ⟨Claims.sorted_put hs n c, hall.tighter hs htight (List.Subset.refl _), fun v hv m hm hnone => ?_⟩
    obtain ⟨d, hd⟩ := Option.ne_none_iff_exists'.mp (hrest v hv m hm)
    obtain ⟨d', hd', -⟩ := htight m d hd
    exact Option.some_ne_none d' (hd'.symm.trans hnone)
  · refine ⟨h.sorted, trivial, fun w hw n hn hnone => ?_⟩
    obtain ⟨c, hc, -⟩ := h.named w hw n hn
    exact Option.some_ne_none c (hc.symm.trans hnone)

theorem aheadOf_append_behindOf (queue : List Waiter) (v : Waiter) :
    aheadOf queue v ++ behindOf queue v = queue := by
  unfold aheadOf behindOf
  split <;> simp

/-- A blocked waiter that is placed leaves the waiters behind it blocked. -/
theorem AllBlocked.placeWaiter {claims : Claims} (hs : claims.Sorted) {queue : List Waiter}
    (h : AllBlocked claims [] queue) {v : Waiter} (hb : blocked claims (aheadOf queue v) v = true) :
    AllBlocked claims [] (placeWaiter queue v) := by
  rw [← aheadOf_append_behindOf queue v] at h
  obtain ⟨hahead, hbehind⟩ := allBlocked_append.mp h
  exact allBlocked_append.mpr ⟨hahead, hb,
    hbehind.tighter hs (.refl claims) (List.subset_append_left _ _)⟩

theorem AllBlocked.move {claims claims' : Claims} {queue queue' : List Waiter} (hn : NamedLaws claims queue)
    (h : AllBlocked claims [] queue) (hm : EngineMove claims queue claims' queue') :
    AllBlocked claims' [] queue' := by
  cases hm with
  | drained _ ht => exact h.tighter hn.sorted ht (List.Subset.refl _)
  | granted hg _ _ => exact h.tighter hn.sorted (Claims.tighter_granted hg) (List.Subset.refl _)
  | queued hb _ _ =>
    exact (h.placeWaiter hn.sorted hb).tighter hn.sorted (Claims.tighter_setUpgradeTicket _ _ _)
      (List.Subset.refl _)
  | passed hl => exact grantPass_allBlocked (hn.loosened hl)
  | emptied => trivial

/-- Settles O57: every event leaves every waiter blocked, with the named records of the wait-queue laws. -/
theorem stepLeavesEveryWaiterBlocked : Obligations.StepLeavesEveryWaiterBlocked := by
  intro s t hwait hall hstep
  exact step_keeps_of_moves (P := fun claims queue => AllBlocked claims [] queue) (fun _ _ h => h.lower)
    (fun _ _ _ _ hn h hm => h.move hn hm) hwait.namedLaws hall hstep

/-! ### The wait-for relation (R61, R64) -/

/-- One waiter stands before another in the queue. -/
theorem pair_sublist_iff {v w : Waiter} {queue : List Waiter} :
    [v, w].Sublist queue ↔ ∃ before after, queue = before ++ w :: after ∧ v ∈ before := by
  constructor
  · intro h
    obtain ⟨front, back, rfl, hv, hw⟩ := List.append_sublist_iff.mp (show ([v] ++ [w]).Sublist queue from h)
    obtain ⟨between, after, rfl⟩ := List.append_of_mem (List.singleton_sublist.mp hw)
    exact ⟨front ++ between, after, by simp, List.mem_append_left _ (List.singleton_sublist.mp hv)⟩
  · rintro ⟨before, after, rfl, hv⟩
    exact (List.singleton_sublist.mpr hv).append (List.singleton_sublist.mpr (List.mem_cons_self ..))

/-- The wait-for relation by pairs of waiters in queue order. -/
theorem waitsFor_iff {claims : Claims} {queue : List Waiter} {a b : Initiator} :
    WaitsFor claims queue a b ↔ a ≠ b ∧ ∃ w ∈ queue, w.initiator = a ∧
      ((∃ e ∈ claims, e.2.holder = b ∧ e.2.live = true ∧ w.ownRecord ≠ some e.1
          ∧ ConflictsRecord w.mode w.span e.2)
        ∨ ∃ v, [v, w].Sublist queue ∧ v.initiator = b ∧ ConflictsWaiter w.mode w.span v) := by
  refine and_congr_right fun _ => ⟨?_, ?_⟩
  · rintro ⟨before, w, after, rfl, hw, hrecord | ⟨v, hv, hrest⟩⟩
    · exact ⟨w, by simp, hw, Or.inl hrecord⟩
    · exact ⟨w, by simp, hw, Or.inr ⟨v, pair_sublist_iff.mpr ⟨before, after, rfl, hv⟩, hrest⟩⟩
  · rintro ⟨w, hmem, hw, hrecord | ⟨v, hv, hrest⟩⟩
    · obtain ⟨before, after, rfl⟩ := List.append_of_mem hmem
      exact ⟨before, w, after, rfl, hw, Or.inl hrecord⟩
    · obtain ⟨before, after, rfl, hbefore⟩ := pair_sublist_iff.mp hv
      exact ⟨before, w, after, rfl, hw, Or.inr ⟨v, hbefore, hrest⟩⟩

/-- Fewer waiters wait for no more. -/
theorem WaitsFor.of_sublist {claims : Claims} {queue queue' : List Waiter} (hq : queue'.Sublist queue)
    {a b : Initiator} (h : WaitsFor claims queue' a b) : WaitsFor claims queue a b := by
  obtain ⟨hne, w, hw, hwa, hb⟩ := waitsFor_iff.mp h
  refine waitsFor_iff.mpr ⟨hne, w, hq.subset hw, hwa, hb.imp_right ?_⟩
  rintro ⟨v, hv, hrest⟩
  exact ⟨v, hv.trans hq, hrest⟩

/-- Looser records are waited for no more. -/
theorem WaitsFor.of_looser {claims claims' : Claims} (hs : claims'.Sorted) (hl : claims'.Looser claims)
    {queue : List Waiter} {a b : Initiator} (h : WaitsFor claims' queue a b) : WaitsFor claims queue a b := by
  obtain ⟨hne, w, hw, hwa, hb⟩ := waitsFor_iff.mp h
  refine waitsFor_iff.mpr ⟨hne, w, hw, hwa, hb.imp_left ?_⟩
  rintro ⟨⟨n, c'⟩, hc', rfl, hlive, hown, hconf⟩
  obtain ⟨c, hc, hloose⟩ := hl n c' ((Claims.get_eq_some_iff hs).mpr hc')
  exact ⟨(n, c), Claims.mem_of_get hc, hloose.holder.symm, hloose.live hlive, hown, hloose.conflicts hconf⟩

theorem WaitsFor.of_loosened {claims claims' : Claims} {queue queue' : List Waiter}
    (hl : Loosened claims queue claims' queue') {a b : Initiator} (h : WaitsFor claims' queue' a b) :
    WaitsFor claims queue a b :=
  (h.of_looser hl.sorted hl.records).of_sublist hl.queue

/-- The record stands for a granted waiter: HELD by its initiator, over its span, in its mode. -/
structure Claim.StandsFor (c : Claim) (w : Waiter) : Prop where
  holder : c.holder = w.initiator
  span : c.span = w.span
  mode : c.mode = w.mode
  phase : c.phase = .held

/-- A CLAIM waiter names no record. -/
theorem Waiter.named_of_isClaim {w : Waiter} (h : w.isClaim = true) (claims : Claims) : w.Named claims := by
  intro n hn
  unfold Waiter.isClaim at h
  unfold Waiter.ownRecord at hn
  split at h
  · rename_i hk
    simp [hk] at hn
  · cases h

/-- The grant of a CLAIM, or of an UPGRADE on a record of its own, makes a record that stands for the waiter. -/
theorem grantedRecord_standsFor {claims : Claims} {w : Waiter} {n : ClaimNo} {c : Claim} (hn : w.Named claims)
    (hg : grantedRecord claims w = some (n, c)) : c.StandsFor w := by
  rcases grantedRecord_eq_some.mp hg with ⟨mode, hk, -, rfl⟩ | ⟨hk, d, hd, rfl⟩
  · exact ⟨rfl, rfl, by simp [Waiter.mode, hk], rfl⟩
  · obtain ⟨d', hd', hheld, hholder, hspan, -⟩ := hn n (by simp [Waiter.ownRecord, hk])
    obtain rfl : d = d' := Option.some.inj (hd.symm.trans hd')
    exact ⟨hholder, hspan, by simp [Waiter.mode, hk], (Claim.heldShared_iff.mp hheld).1⟩

/-- A request conflicts with the record that stands for a waiter exactly when it conflicts with the waiter (R63). -/
theorem Claim.StandsFor.conflicts_iff {c : Claim} {w : Waiter} (h : c.StandsFor w) {mode : Mode} {span : Span} :
    ConflictsRecord mode span c ↔ ConflictsWaiter mode span w := by
  simp only [ConflictsRecord, ConflictsWaiter, h.span, h.mode, h.phase, ne_eq, not_true_eq_false, or_false]

theorem ConflictsWaiter.symm {v w : Waiter} (h : ConflictsWaiter v.mode v.span w) :
    ConflictsWaiter w.mode w.span v :=
  ⟨h.1.symm, h.2.symm⟩

/-- Whoever waits for another after a grant did so before, or waits for the granted initiator by a waiter that
conflicts with the granted one. -/
theorem WaitsFor.of_granted {claims : Claims} (hs : claims.Sorted) {queue : List Waiter} {w : Waiter}
    {n : ClaimNo} {c : Claim} (hc : c.StandsFor w) {a b : Initiator} (h : WaitsFor (claims.put n c) queue a b) :
    WaitsFor claims queue a b
      ∨ (b = w.initiator ∧ ∃ v ∈ queue, v.initiator = a ∧ ConflictsWaiter v.mode v.span w) := by
  obtain ⟨hne, v, hv, hva, ⟨e, he, hholder, hlive, hown, hconf⟩ | hqueue⟩ := waitsFor_iff.mp h
  · rcases (Claims.mem_put_iff hs).mp he with rfl | ⟨he, -⟩
    · exact Or.inr ⟨hholder.symm.trans hc.holder, v, hv, hva, hc.conflicts_iff.mp hconf⟩
    · exact Or.inl (waitsFor_iff.mpr ⟨hne, v, hv, hva, Or.inl ⟨e, he, hholder, hlive, hown, hconf⟩⟩)
  · exact Or.inl (waitsFor_iff.mpr ⟨hne, v, hv, hva, Or.inr hqueue⟩)

/-- A request that no waiter contends with conflicts with none of them, nor they with it. -/
theorem not_conflictsWaiter_of_not_contended {claims : Claims} {earlier : List Waiter} {w : Waiter}
    (h : contended claims earlier w = false) {v : Waiter} (hv : v ∈ earlier) :
    ¬ConflictsWaiter v.mode v.span w :=
  fun hconf => contended_eq_false_iff.mp h (Or.inr ⟨v, hv, hconf.symm⟩)

/-- A grant in a pass adds no pair: the waiters after the granted one waited for it already, and those before it do
not conflict with it (R64). -/
theorem WaitsFor.of_granted_in_pass {claims : Claims} (hs : claims.Sorted) {before after : List Waiter}
    {w : Waiter} {n : ClaimNo} {c : Claim} (hc : c.StandsFor w) (hclear : contended claims before w = false)
    {a b : Initiator} (h : WaitsFor (claims.put n c) (before ++ after) a b) :
    WaitsFor claims (before ++ w :: after) a b := by
  rcases h.of_granted hs hc with hold | ⟨rfl, v, hv, hva, hconf⟩
  · exact hold.of_sublist ((List.sublist_cons_self w after).append_left before)
  · rcases List.mem_append.mp hv with hbefore | hafter
    · exact absurd hconf (not_conflictsWaiter_of_not_contended hclear hbefore)
    · have hpair : [w, v].Sublist (before ++ w :: after) :=
        ((List.singleton_sublist.mpr hafter).cons_cons w).trans (List.sublist_append_right _ _)
      exact waitsFor_iff.mpr ⟨h.1, v, hpair.subset (by simp), hva, Or.inr ⟨w, hpair, rfl, hconf⟩⟩

/-! ### Cycles (R62 to R64) -/

theorem mem_widen {pairs : List (Initiator × Initiator)} {start : List Initiator} {b : Initiator} :
    b ∈ widen pairs start ↔ b ∈ start ∨ ∃ a ∈ start, (a, b) ∈ pairs := by
  simp only [widen, List.mem_filter, List.mem_finRange, true_and, Bool.or_eq_true, List.contains_iff_mem,
    List.any_eq_true, Bool.and_eq_true, decide_eq_true_eq, Prod.exists]
  refine or_congr_right ⟨?_, ?_⟩
  · rintro ⟨a, _, hp, ha, rfl⟩
    exact ⟨a, ha, hp⟩
  · rintro ⟨a, ha, hp⟩
    exact ⟨a, b, hp, ha, rfl⟩

theorem reached_mono {pairs pairs' : List (Initiator × Initiator)} (hp : pairs ⊆ pairs') (n : Nat)
    {start start' : List Initiator} (hs : start ⊆ start') : reached pairs n start ⊆ reached pairs' n start' := by
  induction n generalizing start start' with
  | zero => exact hs
  | succ n ih =>
    refine ih fun b hb => mem_widen.mpr ((mem_widen.mp hb).imp (hs ·) ?_)
    rintro ⟨a, ha, hab⟩
    exact ⟨a, hs ha, hp hab⟩

/-- More pairs keep every cycle. -/
theorem hasCycle_mono {pairs pairs' : List (Initiator × Initiator)} (hp : pairs ⊆ pairs')
    (h : hasCycle pairs = true) : hasCycle pairs' = true := by
  simp only [hasCycle, waitsThrough, List.any_eq_true, List.contains_iff_mem] at h ⊢
  obtain ⟨a, ha, hreach⟩ := h
  exact ⟨a, ha, reached_mono hp 7 (List.map_subset _ (List.filter_subset _ hp)) hreach⟩

/-- Where no pair is new, no cycle is. -/
theorem noCycle_of_waitsFor {claims claims' : Claims} {queue queue' : List Waiter}
    (h : hasCycle (waitPairs claims queue) = false)
    (hw : ∀ a b, WaitsFor claims' queue' a b → WaitsFor claims queue a b) :
    hasCycle (waitPairs claims' queue') = false :=
  Bool.eq_false_iff.mpr fun hcycle => Bool.eq_false_iff.mp h
    (hasCycle_mono (fun _ hp => mem_waitPairs.mpr (hw _ _ (mem_waitPairs.mp hp))) hcycle)

/-- The relation does not see what is left of a wait. -/
theorem waitPairs_lower (claims : Claims) (queue : List Waiter) :
    waitPairs claims (queue.map Waiter.lower) = waitPairs claims queue := by
  have hpairs : ∀ earlier w, pairsOf claims (earlier.map Waiter.lower) w.lower = pairsOf claims earlier w := by
    intro earlier w
    simp only [pairsOf, List.filter_map, List.map_map]
    rfl
  have hfrom : ∀ earlier, waitPairsFrom claims (earlier.map Waiter.lower) (queue.map Waiter.lower)
      = waitPairsFrom claims earlier queue := by
    induction queue with
    | nil => exact fun _ => rfl
    | cons w rest ih =>
      intro earlier
      rw [List.map_cons, waitPairsFrom, waitPairsFrom, hpairs, ← ih (earlier ++ [w])]
      simp
  exact hfrom []

theorem grantPass_noCycle {tb : Tables} (hn : NamedLaws tb.claims tb.queue)
    (h : hasCycle (waitPairs tb.claims tb.queue) = false) :
    hasCycle (waitPairs (grantPass tb).claims (grantPass tb).queue) = false := by
  refine (grantPass_keeps (P := fun tb' => NamedLaws tb'.claims tb'.queue
    ∧ hasCycle (waitPairs tb'.claims tb'.queue) = false) ?_ tb ⟨hn, h⟩).2
  intro tb' before w after n c hq ⟨hn', h'⟩ hj
  rw [hq] at hn' h'
  obtain ⟨hclear, hg⟩ := judgeWaiter_eq_some.mp hj
  have hstands := grantedRecord_standsFor (hn'.named w (by simp)) hg
  exact ⟨hn'.leave.granted hg hn'.apart_middle,
    noCycle_of_waitsFor h' fun _ _ hw => hw.of_granted_in_pass hn'.sorted hstands hclear⟩

theorem noCycle_move {claims claims' : Claims} {queue queue' : List Waiter} (hn : NamedLaws claims queue)
    (h : hasCycle (waitPairs claims queue) = false) (hm : EngineMove claims queue claims' queue') :
    hasCycle (waitPairs claims' queue') = false := by
  cases hm with
  | drained hl _ => exact noCycle_of_waitsFor h fun _ _ hw => hw.of_loosened hl
  | @granted w n c hg ha hc =>
    rcases hc with ⟨hclaim, hclear⟩ | hcycle
    · refine noCycle_of_waitsFor h fun a b hw => ?_
      have hstands : c.StandsFor w := grantedRecord_standsFor (Waiter.named_of_isClaim hclaim claims) hg
      rcases hw.of_granted hn.sorted hstands with hold | ⟨-, v, hv, -, hconf⟩
      · exact hold
      · exact absurd hconf (not_conflictsWaiter_of_not_contended hclear hv)
    · exact hcycle
  | queued _ _ hc =>
    exact noCycle_of_waitsFor hc fun _ _ hw => hw.of_looser (setUpgradeTicket_sorted hn.sorted _ _)
      (Claims.looser_setUpgradeTicket _ _ _)
  | passed hl => exact grantPass_noCycle (hn.loosened hl) (noCycle_of_waitsFor h fun _ _ hw => hw.of_loosened hl)
  | emptied => rfl

/-- Settles O58: no event makes a cycle, with the named records of the wait-queue laws. -/
theorem stepKeepsTheRelationFreeOfCycles : Obligations.StepKeepsTheRelationFreeOfCycles := by
  intro s t hwait hfree hstep
  exact step_keeps_of_moves (P := fun claims queue => hasCycle (waitPairs claims queue) = false)
    (fun claims queue h => (congrArg hasCycle (waitPairs_lower claims queue)).trans h)
    (fun _ _ _ _ hn h hm => noCycle_move hn h hm) hwait.namedLaws hfree hstep

end Sys2Proof.Machine

/-! PROOF. The initiator requests at their take: what the gate's refusal and the request's own judge each leave, said
once for every kind, and RENEW as the first use (R20, R21, R76). -/

namespace Sys2Proof.Machine

/-! ### The take and its completion, for every kind of initiator request -/

/-- A request that the gate refuses completes with the refusal, and restarts no lease (R20, R21). -/
theorem takeInitiator_completed_of_refusal {s : State} {k : RequestKind} (judge : InitiatorJudge) {i : Initiator}
    {w : RequestWords} {o : OutcomeCode} (ht : s.Takes (.initiator i) k w) (hg : GateRefusal s i k o) :
    CompletedInitiator s (takeInitiator k judge s) i (.bare o) := by
  rw [takeInitiator_of_takes ht, State.judgeInitiator_of_refusal hg]
  exact completedInitiator_complete s i (.bare o)

/-- A request of an ACTIVE initiator completes with what its judge makes of the tables after the lease restart. -/
theorem takeInitiator_completed_of_active {s : State} {k : RequestKind} (judge : InitiatorJudge) {i : Initiator}
    {w : RequestWords} (h : s.TakesActive i k w) :
    CompletedInitiator { s with tables := (judge s.config i w (s.renewed i)).1 } (takeInitiator k judge s) i
      (judge s.config i w (s.renewed i)).2 := by
  rw [takeInitiator_of_active h]
  exact completedInitiator_complete _ i _

/-! ### RENEW (R76) -/

theorem exec_renew (s : State) : exec .renew s = .next (takeInitiator .renew judgeRenew s) := rfl

/-- RENEW has no work of its own: it leaves the tables of the lease restart and answers DONE. -/
theorem judgeRenew_eq (cfg : ConfigRegs) (i : Initiator) (w : RequestWords) (tb : Tables) :
    judgeRenew cfg i w tb = (tb, .bare .done) := rfl

/-- Settles O11: past the gate RENEW's judge adds nothing to the lease restart, and before it the refusal of the gate
is the completion. -/
theorem renewRestartsTheLeaseAlone : Obligations.RenewRestartsTheLeaseAlone := by
  constructor
  · intro s i w hactive
    have hdone := takeInitiator_completed_of_active judgeRenew hactive
    rw [judgeRenew_eq] at hdone
    exact ⟨_, exec_renew s, hdone⟩
  · intro s i w o htakes hrefused
    exact ⟨_, exec_renew s, takeInitiator_completed_of_refusal judgeRenew htakes hrefused⟩

end Sys2Proof.Machine

/-! PROOF. The check port: the verdict table read line by line (R120).  Each part of the model's judgement stands for a
run of lines, so its answer is that of the first line from the run's start that applies; and the effect of an answer on
the capture follows from the answer alone (R134). -/

namespace Sys2Proof.Machine

/-! ### The records that cover a granule, by what they are found for -/

theorem Claim.isDrainingOut_iff {c : Claim} : c.isDrainingOut = true ↔ ∃ stage, c.phase = .drainingOut stage := by
  unfold Claim.isDrainingOut
  cases c.phase <;> simp

theorem Claim.isDrainingDown_iff {c : Claim} :
    c.isDrainingDown = true ↔ ∃ stage, c.phase = .drainingDown stage := by
  unfold Claim.isDrainingDown
  cases c.phase <;> simp

theorem Claim.heldExclusive_iff {c : Claim} :
    c.heldExclusive = true ↔ c.phase = .held ∧ c.mode = .exclusive := by
  simp [Claim.heldExclusive]

section

variable {s : State} {who : Initiator} {granule : Granule} {kind : AccessKind}

theorem Covered.mono {p q : ClaimNo → Claim → Prop} (h : Covered s granule p) (hpq : ∀ n c, p n c → q n c) :
    Covered s granule q := by
  obtain ⟨e, he, hmeets, hp⟩ := h
  exact ⟨e, he, hmeets, hpq _ _ hp⟩

/-- The number that the check port finds is that of a covering record with the property. -/
theorem covered_of_coveredBy {p : Claim → Bool} {n : ClaimNo} {q : ClaimNo → Claim → Prop}
    (h : coveredBy s.tables.claims granule.toNat p = some n) (hq : ∀ c, p c = true → q n c) :
    Covered s granule q := by
  obtain ⟨e, he, hmeets, hp, rfl⟩ := coveredBy_eq_some h
  exact ⟨e, he, hmeets, hq e.2 hp⟩

theorem not_covered_of_coveredBy {p : Claim → Bool} (h : coveredBy s.tables.claims granule.toNat p = none) :
    ¬Covered s granule fun _ c => p c = true := by
  rintro ⟨e, he, hmeets, hp⟩
  exact Bool.false_ne_true ((coveredBy_eq_none.mp h e he hmeets).symm.trans hp)

/-- A record found when none of the querying initiator's own has the property is another initiator's. -/
theorem covered_other_of_coveredBy {p : Claim → Bool} {n : ClaimNo} {q : ClaimNo → Claim → Prop}
    (hown : coveredBy s.tables.claims granule.toNat (fun c => p c && decide (c.holder = who)) = none)
    (h : coveredBy s.tables.claims granule.toNat p = some n)
    (hq : ∀ c, p c = true → c.holder ≠ who → q n c) : Covered s granule q := by
  obtain ⟨e, he, hmeets, hp, rfl⟩ := coveredBy_eq_some h
  exact ⟨e, he, hmeets, hq e.2 hp (by simpa [hp] using coveredBy_eq_none.mp hown e he hmeets)⟩

theorem not_covered_own_of_coveredBy {p : Claim → Bool}
    (h : coveredBy s.tables.claims granule.toNat (fun c => p c && decide (c.holder = who)) = none) :
    ¬Covered s granule fun _ c => p c = true ∧ c.holder = who := by
  simpa using not_covered_of_coveredBy h

/-! ### The lines of the verdict table, in their order -/

/-- The judgement is what the line says: its verdict, and for a FAULT its capture reason (R120, R133). -/
def LineAnswer (s : State) (who : Initiator) (granule : Granule) (line : Nat) (j : Judgement) : Prop :=
  lineVerdict line = j.verdict ∧ ∀ reason, j = .fault reason → LineReason s who granule line reason

theorem LineAnswer.not_fault {line : Nat} {j : Judgement} (h : lineVerdict line = j.verdict)
    (hj : j.verdict ≠ .fault) : LineAnswer s who granule line j :=
  ⟨h, fun _ hr => absurd (congrArg Judgement.verdict hr) hj⟩

theorem LineAnswer.fault {line : Nat} {reason : CaptureReason} (h : lineVerdict line = .fault)
    (hr : LineReason s who granule line reason) : LineAnswer s who granule line (.fault reason) :=
  ⟨h, fun _ hr' => Judgement.fault.inj hr' ▸ hr⟩

/-- The judgement is the answer of the first line that applies, read from line `k` on. -/
inductive AnsweredFrom (s : State) (who : Initiator) (granule : Granule) (kind : AccessKind) :
    Nat → Judgement → Prop where
  | here {k : Nat} {j : Judgement} : LineApplies s who granule kind k → LineAnswer s who granule k j →
      AnsweredFrom s who granule kind k j
  | next {k : Nat} {j : Judgement} : ¬LineApplies s who granule kind k →
      AnsweredFrom s who granule kind (k + 1) j → AnsweredFrom s who granule kind k j

/-- What `AnsweredFrom` means: any line that is the first from `k` on to apply gives the judgement. -/
theorem AnsweredFrom.lineAnswer {k line : Nat} {j : Judgement} (h : AnsweredFrom s who granule kind k j)
    (hk : k ≤ line) (happlies : LineApplies s who granule kind line)
    (hfirst : ∀ m, k ≤ m → m < line → ¬LineApplies s who granule kind m) : LineAnswer s who granule line j := by
  induction h with
  | @here k j hk_applies hanswer =>
    have hline : k = line := by
      by_contra hne
      exact hfirst k le_rfl (lt_of_le_of_ne hk hne) hk_applies
    exact hline ▸ hanswer
  | @next k j hk_not _ ih =>
    have hne : k ≠ line := fun hline => hk_not (hline ▸ happlies)
    exact ih (lt_of_le_of_ne hk hne) fun m hm => hfirst m (Nat.le_of_succ_le hm)

/-! ### The parts of the judgement, from the last lines to the first -/

/-- Lines 14 to 18, where every covering record is HELD SHARED. -/
theorem judgeUnguarded_answered
    (hshared : ∀ e ∈ s.tables.claims, e.2.span.Meets ⟨granule.toNat, 1⟩ →
      e.2.phase = .held ∧ e.2.mode = .shared) :
    AnsweredFrom s who granule kind 14 (judgeUnguarded s.config s.tables.claims granule.toNat kind) := by
  unfold judgeUnguarded
  cases hn : coveredBy s.tables.claims granule.toNat fun _ => true with
  | some n =>
    have hcov : Covered s granule fun _ c => c.phase = .held ∧ c.mode = .shared := by
      obtain ⟨e, he, hmeets, -⟩ := coveredBy_eq_some hn
      exact ⟨e, he, hmeets, hshared e he hmeets⟩
    cases kind with
    | read => exact .here ⟨hcov, rfl⟩ (.not_fault rfl nofun)
    | write => exact .next (fun h => nomatch h.2) (.here ⟨hcov, rfl⟩ (.fault rfl rfl))
  | none =>
    have hnone : ¬Covered s granule fun _ _ => True := by simpa using not_covered_of_coveredBy hn
    have hnot : ¬Covered s granule fun _ c => c.phase = .held ∧ c.mode = .shared :=
      fun h => hnone (h.mono fun _ _ _ => trivial)
    refine .next (fun h => hnot h.1) (.next (fun h => hnot h.1) ?_)
    cases kind with
    | read => exact .here ⟨hnone, rfl⟩ (.not_fault rfl nofun)
    | write =>
      refine .next (fun h => nomatch h.2) ?_
      cases hclosed : s.config.unclaimedClosed with
      | false => exact .here ⟨hnone, rfl, hclosed⟩ (.not_fault rfl nofun)
      | true =>
        exact .next (fun h => Bool.false_ne_true (h.2.2.symm.trans hclosed))
          (.here ⟨hnone, rfl, hclosed⟩ (.fault rfl rfl))

/-- Lines 11 to 18, where every covering record is HELD. -/
theorem judgeHeld_answered
    (hheld : ∀ e ∈ s.tables.claims, e.2.span.Meets ⟨granule.toNat, 1⟩ → e.2.phase = .held) :
    AnsweredFrom s who granule kind 11 (judgeHeld s.config s.tables.claims who granule.toNat kind) := by
  unfold judgeHeld
  split
  case h_1 n hn =>
    have hcov : Covered s granule fun _ c => c.phase = .held ∧ c.mode = .exclusive ∧ c.holder = who :=
      covered_of_coveredBy hn (by simp +contextual [Claim.heldExclusive_iff])
    exact .here hcov (.not_fault rfl nofun)
  case h_2 hown =>
    have hnot := not_covered_own_of_coveredBy hown
    simp only [Claim.heldExclusive_iff, and_assoc] at hnot
    refine .next hnot ?_
    split
    case h_1 n hn =>
      have hreason : Covered s granule fun m c =>
          c.phase = .held ∧ c.mode = .exclusive ∧ c.holder ≠ who ∧ CaptureReason.heldByOther n = .heldByOther m :=
        covered_other_of_coveredBy hown hn (by simp +contextual [Claim.heldExclusive_iff])
      have hother : Covered s granule fun _ c => c.phase = .held ∧ c.mode = .exclusive ∧ c.holder ≠ who :=
        hreason.mono fun _ _ ⟨hp, hm, hh, _⟩ => ⟨hp, hm, hh⟩
      split
      · rename_i hread
        exact .here ⟨hother, hread⟩ (.not_fault rfl nofun)
      · rename_i hguarded
        exact .next (fun h => hguarded h.2) (.here hother (.fault rfl hreason))
    case h_2 hn =>
      have hnone := not_covered_of_coveredBy hn
      simp only [Claim.heldExclusive_iff] at hnone
      have hnot : ¬Covered s granule fun _ c => c.phase = .held ∧ c.mode = .exclusive ∧ c.holder ≠ who :=
        fun h => hnone (h.mono fun _ _ ⟨hp, hm, _⟩ => ⟨hp, hm⟩)
      refine .next (fun h => hnot h.1) (.next hnot (judgeUnguarded_answered fun e he hmeets => ?_))
      have hphase := hheld e he hmeets
      cases hmode : e.2.mode with
      | shared => exact ⟨hphase, rfl⟩
      | exclusive => exact absurd ⟨e, he, hmeets, hphase, hmode⟩ hnone

/-- Lines 8 to 18, where every covering record is HELD or DRAINING_DOWN. -/
theorem judgeDown_answered
    (hlive : ∀ e ∈ s.tables.claims, e.2.span.Meets ⟨granule.toNat, 1⟩ →
      e.2.phase = .held ∨ ∃ stage, e.2.phase = .drainingDown stage) :
    AnsweredFrom s who granule kind 8 (judgeDown s.config s.tables.claims who granule.toNat kind) := by
  unfold judgeDown
  split
  case h_1 n hn =>
    have hreason : Covered s granule fun m c =>
        (∃ stage, c.phase = .drainingDown stage) ∧ c.holder = who ∧ CaptureReason.downgraded n = .downgraded m :=
      covered_of_coveredBy hn (by simp +contextual [Claim.isDrainingDown_iff])
    have hown : Covered s granule fun _ c => (∃ stage, c.phase = .drainingDown stage) ∧ c.holder = who :=
      hreason.mono fun _ _ ⟨hp, hh, _⟩ => ⟨hp, hh⟩
    cases kind with
    | read => exact .here ⟨hown, rfl⟩ (.not_fault rfl nofun)
    | write => exact .next (fun h => nomatch h.2) (.here ⟨hown, rfl⟩ (.fault rfl hreason))
  case h_2 hown =>
    have hnot := not_covered_own_of_coveredBy hown
    simp only [Claim.isDrainingDown_iff] at hnot
    refine .next (fun h => hnot h.1) (.next (fun h => hnot h.1) ?_)
    split
    case h_1 n hn =>
      have hother : Covered s granule fun _ c => (∃ stage, c.phase = .drainingDown stage) ∧ c.holder ≠ who :=
        covered_other_of_coveredBy hown hn (by simp +contextual [Claim.isDrainingDown_iff])
      exact .here hother (.not_fault rfl nofun)
    case h_2 hn =>
      have hnone := not_covered_of_coveredBy hn
      simp only [Claim.isDrainingDown_iff] at hnone
      have hnot : ¬Covered s granule fun _ c => (∃ stage, c.phase = .drainingDown stage) ∧ c.holder ≠ who :=
        fun h => hnone (h.mono fun _ _ => And.left)
      refine .next hnot (judgeHeld_answered fun e he hmeets => ?_)
      exact (hlive e he hmeets).resolve_right fun hp => hnone ⟨e, he, hmeets, hp⟩

/-- Lines 5 to 18, the lines over the covering records. -/
theorem judgeRecords_answered :
    AnsweredFrom s who granule kind 5 (judgeRecords s.config s.tables.claims who granule.toNat kind) := by
  unfold judgeRecords
  split
  case h_1 n hn =>
    have hreason : Covered s granule fun m c =>
        c.phase = .quarantined ∧ CaptureReason.quarantine n = .quarantine m :=
      covered_of_coveredBy hn (by simp)
    have hcov : Covered s granule fun _ c => c.phase = .quarantined := hreason.mono fun _ _ => And.left
    exact .here hcov (.fault rfl hreason)
  case h_2 hq =>
    have hquarantine := not_covered_of_coveredBy hq
    simp only [decide_eq_true_eq] at hquarantine
    refine .next hquarantine ?_
    split
    case h_1 n hn =>
      have hreason : Covered s granule fun m c =>
          (∃ stage, c.phase = .drainingOut stage) ∧ c.holder = who ∧ CaptureReason.released n = .released m :=
        covered_of_coveredBy hn (by simp +contextual [Claim.isDrainingOut_iff])
      have hown : Covered s granule fun _ c => (∃ stage, c.phase = .drainingOut stage) ∧ c.holder = who :=
        hreason.mono fun _ _ ⟨hp, hh, _⟩ => ⟨hp, hh⟩
      exact .here hown (.fault rfl hreason)
    case h_2 hown =>
      have hnot := not_covered_own_of_coveredBy hown
      simp only [Claim.isDrainingOut_iff] at hnot
      refine .next hnot ?_
      split
      case h_1 n hn =>
        have hother : Covered s granule fun _ c => (∃ stage, c.phase = .drainingOut stage) ∧ c.holder ≠ who :=
          covered_other_of_coveredBy hown hn (by simp +contextual [Claim.isDrainingOut_iff])
        exact .here hother (.not_fault rfl nofun)
      case h_2 hn =>
        have hnone := not_covered_of_coveredBy hn
        simp only [Claim.isDrainingOut_iff] at hnone
        have hnot : ¬Covered s granule fun _ c => (∃ stage, c.phase = .drainingOut stage) ∧ c.holder ≠ who :=
          fun h => hnone (h.mono fun _ _ => And.left)
        refine .next hnot (judgeDown_answered fun e he hmeets => ?_)
        cases hphase : e.2.phase with
        | held => exact .inl rfl
        | drainingDown stage => exact .inr ⟨stage, rfl⟩
        | drainingOut stage => exact absurd ⟨e, he, hmeets, stage, hphase⟩ hnone
        | quarantined => exact absurd ⟨e, he, hmeets, hphase⟩ hquarantine

end

/-- A query is judged by the first line of the verdict table that applies (R120). -/
theorem State.judgeQuery_answered (s : State) (who : Initiator) (granule : Granule) (kind : AccessKind) :
    AnsweredFrom s who granule kind 1 (s.judgeQuery who granule kind) := by
  unfold State.judgeQuery
  split
  · rename_i hoff
    exact .here hoff (.not_fault rfl nofun)
  · rename_i hon
    refine .next hon ?_
    split
    · rename_i habsent
      exact .here habsent (.fault rfl rfl)
    · rename_i hpresent
      refine .next hpresent ?_
      split
      · rename_i houtside
        exact .here houtside (.not_fault rfl nofun)
      · rename_i hinside
        refine .next hinside ?_
        split
        · rename_i hlapsed
          exact .here hlapsed (.fault rfl rfl)
        · rename_i hcurrent
          exact .next hcurrent judgeRecords_answered

/-- The verdict table numbers its lines from 1. -/
theorem one_le_of_lineApplies {s : State} {who : Initiator} {granule : Granule} {kind : AccessKind} {line : Nat}
    (h : LineApplies s who granule kind line) : 1 ≤ line :=
  Nat.one_le_iff_ne_zero.mpr fun h0 => by subst h0; exact h

/-! ### The answer at the capture (R134) -/

theorem exec_checkQuery {s : State} (hrun : s.inReset = false) (who : Initiator) (granule : Granule)
    (kind : AccessKind) : exec (.checkQuery who granule kind) s
      = .next (answerQuery who granule kind (s.judgeQuery who granule kind) s) :=
  congrArg Host.Outcome.next (if_neg (by simp [hrun]))

section

variable {s : State} {who : Initiator} {granule : Granule} {kind : AccessKind}

theorem answerQuery_of_not_fault {j : Judgement} (hj : j.verdict ≠ .fault) :
    answerQuery who granule kind j s = { s with verdictOut := some j.verdict } := by
  cases j with
  | pass => rfl
  | retry => rfl
  | fault reason => exact absurd rfl hj

theorem answerQuery_fault_latches (reason : CaptureReason) (h : s.capture = none) :
    answerQuery who granule kind (.fault reason) s
      = { s with verdictOut := some .fault, capture := some ⟨who, granule, kind, reason⟩ } := by
  simp only [answerQuery, latchCapture, h]

theorem answerQuery_fault_overflows (reason : CaptureReason) (h : s.capture ≠ none) :
    answerQuery who granule kind (.fault reason) s = { s with verdictOut := some .fault, overflow := true } := by
  obtain ⟨c, hc⟩ := Option.ne_none_iff_exists'.mp h
  simp only [answerQuery, latchCapture, hc]

end

theorem Judgement.verdict_eq_fault {j : Judgement} : j.verdict = .fault ↔ ∃ reason, j = .fault reason := by
  cases j <;> simp [Judgement.verdict]

/-- Settles O44: the judgement is the answer of the first line that applies, and each kind of answer has its one effect
on the capture and the overflow flag. -/
theorem firstFaultIsCaptured : Obligations.FirstFaultIsCaptured := by
  intro s who granule kind line hrun happlies hfirst
  obtain ⟨hverdict, hreason⟩ :=
    (s.judgeQuery_answered who granule kind).lineAnswer (one_le_of_lineApplies happlies) happlies hfirst
  refine ⟨_, exec_checkQuery hrun who granule kind, ?_, ?_, ?_⟩
  · intro hpass
    rw [answerQuery_of_not_fault (hverdict ▸ hpass)]
    exact ⟨rfl, rfl⟩
  · intro hfault hnone
    obtain ⟨reason, hj⟩ := Judgement.verdict_eq_fault.mp (hverdict.symm.trans hfault)
    rw [hj, answerQuery_fault_latches reason hnone]
    exact ⟨rfl, reason, hreason reason hj, rfl⟩
  · intro hfault hsome
    obtain ⟨reason, hj⟩ := Judgement.verdict_eq_fault.mp (hverdict.symm.trans hfault)
    rw [hj, answerQuery_fault_overflows reason hsome]
    exact ⟨rfl, rfl⟩

end Sys2Proof.Machine

/-! PROOF. The attention lines: each term of a line, as the model computes it, said in the manual's words, and the two
lines put together from their terms (R159, R160, R179). -/

namespace Sys2Proof.Machine

/-! ### The terms -/

theorem Mailbox.completionTerm_iff {mb : Mailbox} :
    mb.completionTerm = true ↔ mb.busy = false ∧ (mb.done = true ∨ mb.error = true) ∧ mb.cmpe = true := by
  simp only [Mailbox.completionTerm, Bool.and_eq_true, Bool.or_eq_true, Bool.not_eq_true', and_assoc]

/-- The quarantine count is above 0 exactly while some record is QUARANTINED (R18, R160). -/
theorem Claims.quarantineCount_pos_iff {claims : Claims} :
    0 < claims.quarantineCount ↔ ∃ e ∈ claims, e.2.phase = .quarantined := by
  simp only [Claims.quarantineCount, List.countP_pos_iff, decide_eq_true_eq]

/-! ### The lines -/

theorem State.atn_iff {s : State} {i : Initiator} :
    s.atn i = true ↔ s.inReset = false ∧ s.tables.inits[i].state ≠ .absent ∧
      (s.mailboxes[i].completionTerm = true
        ∨ (s.tables.inits[i].notices ≠ [] ∧ s.ntfe[i] = true)
        ∨ s.tables.inits[i].state = .lapsed) := by
  simp only [State.atn, Bool.and_eq_true, Bool.or_eq_true, Bool.not_eq_true', decide_eq_true_eq,
    decide_eq_false_iff_not, List.isEmpty_eq_false_iff, and_assoc, or_assoc, ne_eq]

theorem State.atnm_iff {s : State} :
    s.atnm = true ↔ s.inReset = false ∧
      (s.mgmt.completionTerm = true
        ∨ (s.capture ≠ none ∧ s.cape = true)
        ∨ (0 < s.tables.claims.quarantineCount ∧ s.qae = true)) := by
  simp only [State.atnm, Bool.and_eq_true, Bool.or_eq_true, Bool.not_eq_true', decide_eq_true_eq,
    Option.isSome_iff_ne_none, or_assoc]

/-- Settles O42: each line is its terms outside reset; the completion term and the quarantine count are then read in
the manual's words. -/
theorem attentionLinesFollowTheirTerms : Obligations.AttentionLinesFollowTheirTerms := by
  constructor
  · intro s i
    rw [State.atn_iff, Mailbox.completionTerm_iff]
  · intro s
    rw [State.atnm_iff, Mailbox.completionTerm_iff, Claims.quarantineCount_pos_iff]

end Sys2Proof.Machine

/-! PROOF. What one command does to the whole state, said once: the requests of the two classes with the command and the
judge of each (`initiatorArms`, `managementArms`), and `Event c`, which lists what the command `c` makes of a state once
the ticks that come first were taken (log entry 6).  `exec_event` says that there is no other result, so a law that the
events of time and these events keep is kept by every step (`step_keeps`). -/

namespace Sys2Proof.Machine

/-! ### The commands that take requests (R152) -/

/-- The commands that take an initiator request, each with the kind and the judge of it. -/
def initiatorArms : List (Instr × RequestKind × InitiatorJudge) :=
  [(.register, .register, judgeRegister), (.unregister, .unregister, judgeUnregister),
    (.renew, .renew, judgeRenew), (.claim, .claim, judgeClaim), (.upgrade, .upgrade, judgeUpgrade),
    (.downgrade, .downgrade, judgeDowngrade), (.release, .release, judgeRelease), (.cancel, .cancel, judgeCancel),
    (.takeNotice, .takeNotice, judgeTakeNotice), (.lookup, .lookup, judgeLookup)]

/-- The commands that take a management request, each with the kind and the judge of it. -/
def managementArms : List (Instr × RequestKind × ManagementJudge) :=
  [(.enable, .enable, judgeEnable), (.disable, .disable, judgeDisable), (.dormant, .dormant, judgeDormant),
    (.evict, .evict, judgeEvict), (.clearQuarantine, .clearQuarantine, judgeClearQuarantine),
    (.clearCapture, .clearCapture, judgeClearCapture), (.inspectClaim, .inspectClaim, judgeInspectClaim),
    (.inspectInitiator, .inspectInitiator, judgeInspectInitiator),
    (.inspectWaiter, .inspectWaiter, judgeInspectWaiter)]

theorem mem_initiatorArms {c : Instr} {k : RequestKind} {judge : InitiatorJudge} :
    (c, k, judge) ∈ initiatorArms ↔
      (c = .register ∧ k = .register ∧ judge = judgeRegister)
        ∨ (c = .unregister ∧ k = .unregister ∧ judge = judgeUnregister)
        ∨ (c = .renew ∧ k = .renew ∧ judge = judgeRenew) ∨ (c = .claim ∧ k = .claim ∧ judge = judgeClaim)
        ∨ (c = .upgrade ∧ k = .upgrade ∧ judge = judgeUpgrade)
        ∨ (c = .downgrade ∧ k = .downgrade ∧ judge = judgeDowngrade)
        ∨ (c = .release ∧ k = .release ∧ judge = judgeRelease)
        ∨ (c = .cancel ∧ k = .cancel ∧ judge = judgeCancel)
        ∨ (c = .takeNotice ∧ k = .takeNotice ∧ judge = judgeTakeNotice)
        ∨ (c = .lookup ∧ k = .lookup ∧ judge = judgeLookup) := by
  simp only [initiatorArms, List.mem_cons, List.not_mem_nil, or_false, Prod.mk.injEq]

theorem mem_managementArms {c : Instr} {k : RequestKind} {judge : ManagementJudge} :
    (c, k, judge) ∈ managementArms ↔
      (c = .enable ∧ k = .enable ∧ judge = judgeEnable) ∨ (c = .disable ∧ k = .disable ∧ judge = judgeDisable)
        ∨ (c = .dormant ∧ k = .dormant ∧ judge = judgeDormant) ∨ (c = .evict ∧ k = .evict ∧ judge = judgeEvict)
        ∨ (c = .clearQuarantine ∧ k = .clearQuarantine ∧ judge = judgeClearQuarantine)
        ∨ (c = .clearCapture ∧ k = .clearCapture ∧ judge = judgeClearCapture)
        ∨ (c = .inspectClaim ∧ k = .inspectClaim ∧ judge = judgeInspectClaim)
        ∨ (c = .inspectInitiator ∧ k = .inspectInitiator ∧ judge = judgeInspectInitiator)
        ∨ (c = .inspectWaiter ∧ k = .inspectWaiter ∧ judge = judgeInspectWaiter) := by
  simp only [managementArms, List.mem_cons, List.not_mem_nil, or_false, Prod.mk.injEq]

theorem exec_of_initiatorArm {c : Instr} {k : RequestKind} {judge : InitiatorJudge}
    (h : (c, k, judge) ∈ initiatorArms) (s : State) : exec c s = .next (takeInitiator k judge s) := by
  rcases mem_initiatorArms.mp h with ⟨rfl, rfl, rfl⟩ | ⟨rfl, rfl, rfl⟩ | ⟨rfl, rfl, rfl⟩ | ⟨rfl, rfl, rfl⟩
    | ⟨rfl, rfl, rfl⟩ | ⟨rfl, rfl, rfl⟩ | ⟨rfl, rfl, rfl⟩ | ⟨rfl, rfl, rfl⟩ | ⟨rfl, rfl, rfl⟩ | ⟨rfl, rfl, rfl⟩ <;>
    rfl

theorem exec_of_managementArm {c : Instr} {k : RequestKind} {judge : ManagementJudge}
    (h : (c, k, judge) ∈ managementArms) (s : State) : exec c s = .next (takeManagement k judge s) := by
  rcases mem_managementArms.mp h with ⟨rfl, rfl, rfl⟩ | ⟨rfl, rfl, rfl⟩ | ⟨rfl, rfl, rfl⟩ | ⟨rfl, rfl, rfl⟩
    | ⟨rfl, rfl, rfl⟩ | ⟨rfl, rfl, rfl⟩ | ⟨rfl, rfl, rfl⟩ | ⟨rfl, rfl, rfl⟩ | ⟨rfl, rfl, rfl⟩ <;> rfl

theorem exec_undefinedRequestKind (s : State) : exec .undefinedRequestKind s = .next (takeUndefined s) := rfl

/-- An initiator request of the table has a judge (R152). -/
theorem exists_initiatorArm {k : RequestKind} {c : Instr} (h : (k, c) ∈ initiatorCommands) :
    ∃ judge, (c, k, judge) ∈ initiatorArms := by
  simp only [initiatorCommands, List.mem_cons, List.not_mem_nil, or_false, Prod.mk.injEq] at h
  simp only [mem_initiatorArms]
  rcases h with ⟨rfl, rfl⟩ | ⟨rfl, rfl⟩ | ⟨rfl, rfl⟩ | ⟨rfl, rfl⟩ | ⟨rfl, rfl⟩ | ⟨rfl, rfl⟩ | ⟨rfl, rfl⟩
    | ⟨rfl, rfl⟩ | ⟨rfl, rfl⟩ | ⟨rfl, rfl⟩ <;> simp

/-- Every request of the table is an initiator request, one of an undefined kind, or a management request (R152). -/
theorem requestCommand_cases {k : RequestKind} {c : Instr} (h : (k, c) ∈ requestCommands) :
    (∃ judge, (c, k, judge) ∈ initiatorArms) ∨ (k = .undefined ∧ c = .undefinedRequestKind)
      ∨ ∃ judge, (c, k, judge) ∈ managementArms := by
  rw [requestCommands, List.mem_append] at h
  refine h.imp exists_initiatorArm fun h => ?_
  simp only [List.mem_cons, List.not_mem_nil, or_false, Prod.mk.injEq] at h
  refine h.imp id fun h => ?_
  simp only [mem_managementArms]
  rcases h with ⟨rfl, rfl⟩ | ⟨rfl, rfl⟩ | ⟨rfl, rfl⟩ | ⟨rfl, rfl⟩ | ⟨rfl, rfl⟩ | ⟨rfl, rfl⟩ | ⟨rfl, rfl⟩
    | ⟨rfl, rfl⟩ | ⟨rfl, rfl⟩ <;> simp

theorem mem_initiatorJudges_of_arm {c : Instr} {k : RequestKind} {judge : InitiatorJudge}
    (h : (c, k, judge) ∈ initiatorArms) : (k, judge) ∈ initiatorJudges := by
  rcases mem_initiatorArms.mp h with ⟨-, rfl, rfl⟩ | ⟨-, rfl, rfl⟩ | ⟨-, rfl, rfl⟩ | ⟨-, rfl, rfl⟩
    | ⟨-, rfl, rfl⟩ | ⟨-, rfl, rfl⟩ | ⟨-, rfl, rfl⟩ | ⟨-, rfl, rfl⟩ | ⟨-, rfl, rfl⟩ | ⟨-, rfl, rfl⟩ <;>
    simp [initiatorJudges]

theorem initiatorArm_kind_ne_management {c : Instr} {k : RequestKind} {judge : InitiatorJudge}
    (h : (c, k, judge) ∈ initiatorArms) : k ≠ .enable ∧ k ≠ .disable ∧ k ≠ .dormant := by
  rcases mem_initiatorArms.mp h with ⟨-, rfl, -⟩ | ⟨-, rfl, -⟩ | ⟨-, rfl, -⟩ | ⟨-, rfl, -⟩ | ⟨-, rfl, -⟩
    | ⟨-, rfl, -⟩ | ⟨-, rfl, -⟩ | ⟨-, rfl, -⟩ | ⟨-, rfl, -⟩ | ⟨-, rfl, -⟩ <;> simp

/-! ### The state in which a request is taken -/

/-- Once the ticks that come first were taken, a request that is offered is at its take (R171, R177). -/
theorem State.readied_takes {s : State} {k : RequestKind} {m : MailboxId} {w : RequestWords}
    (h : (s.readied k).Offers m k w) : (s.readied k).Takes m k w := by
  refine ⟨h, fun he => ?_⟩
  have hrun : s.inReset = false := (readied_events s k).keeps.2.2.2.2.2.2.1 ▸ h.running
  have hdir : s.dirState ≠ .dormant := by
    rw [← (readied_events s k).keeps.2.2.2.1]
    rcases he.1 with ⟨hd, -⟩ | ⟨hd, -⟩ <;> rw [hd] <;> exact nofun
  rcases hr : s.offered k with _ | ⟨m', w'⟩
  · rw [State.readied, hr] at h
    rw [h.offered] at hr
    cases hr
  · by_cases hent : s.entersDormancy m' k = true
    · have hset : s.readied k = settle s := by simp [State.readied, hr, hent]
      rw [hset]
      exact settle_not_waiting hrun hdir
    · have hkeep : s.readied k = s := by simp [State.readied, hr, hent]
      rw [hkeep] at h he
      rw [h.offered] at hr
      cases hr
      exact absurd (State.entersDormancy_iff.mpr he) hent

/-! ### The events of the commands -/

/-- What the command `c` makes of the state `s`, once the ticks that it takes first were taken. -/
inductive Event : Instr → State → State → Prop where
  /-- Its event is not due. -/
  | idle {c : Instr} {s : State} : Event c s s
  /-- An initiator request is taken and completes. -/
  | request {c : Instr} {s : State} {k : RequestKind} {judge : InitiatorJudge} {i : Initiator} {w : RequestWords}
      (harm : (c, k, judge) ∈ initiatorArms) (htakes : s.Takes (.initiator i) k w) :
      Event c s (State.complete { s with tables := (s.judgeInitiator k judge i w).1 } (.initiator i)
        (s.judgeInitiator k judge i w).2)
  /-- A request of an undefined kind is taken from an initiator mailbox. -/
  | undefined {s : State} {i : Initiator} {w : RequestWords} (htakes : s.Takes (.initiator i) .undefined w) :
      Event .undefinedRequestKind s
        (State.complete { s with tables := s.afterTake i } (.initiator i) (.bare .badRequest))
  /-- A request of an undefined kind is taken from the management mailbox. -/
  | undefinedManagement {s : State} {w : RequestWords} (htakes : s.Takes .management .undefined w) :
      Event .undefinedRequestKind s (s.complete .management (.bare .badRequest))
  /-- A management request is taken and completes. -/
  | managed {c : Instr} {s : State} {k : RequestKind} {judge : ManagementJudge} {w : RequestWords}
      (harm : (c, k, judge) ∈ managementArms) (htakes : s.Takes .management k w) :
      Event c s ((judge w s).1.complete .management (judge w s).2)
  /-- Word 0 of a mailbox is written. -/
  | control {c : Instr} {s : State} (who : Initiator) (m : MailboxId) (data : Word) :
      Event c s (busWrite who (mailboxBase m) data s)
  /-- A word of the window is written. -/
  | window {s : State} (who : Initiator) (addr : BitVec 8) (data : Word) :
      Event (.windowWrite who addr data) s (busWrite who addr data s)
  /-- A configuration register is written. -/
  | config {s : State} (who : Initiator) (reg : ConfigReg) (data : Word) :
      Event (.configWrite who reg data) s (busWrite who (BitVec.ofNat 8 (16 + configWord reg)) data s)
  /-- The config-refusal flag is written. -/
  | refusalClear {c : Instr} {s : State} (who : Initiator) (data : Word) :
      Event c s (busWrite who (BitVec.ofNat 8 (16 + refusalWord)) data s)
  /-- Word 0 of the management mailbox is read. -/
  | read {c : Instr} {s : State} (who : Initiator) : Event c s (readManagementWord0 who s)
  /-- A check query is answered. -/
  | query {c : Instr} {s : State} (who : Initiator) (granule : Granule) (kind : AccessKind) :
      Event c s (takeQuery who granule kind s)
  /-- An answer arrives on the fence port. -/
  | answer {c : Instr} {s : State} (code : BitVec 2) : Event c s (fenceAnswer code s)
  /-- The fence timer runs out. -/
  | expiry {c : Instr} {s : State} : Event c s (expireFenceTimer s)
  /-- A tick is taken or an issue made. -/
  | time {c : Instr} {s t : State} (h : TimeEvent s t) : Event c s t
  /-- RESETn is released. -/
  | released {s : State} (pres : BitVec 2) (autoon mgrall : Bool) :
      Event (.resetn pres autoon mgrall) s (releaseReset pres autoon mgrall s)
  /-- RESETn falls. -/
  | fell {s : State} : Event .resetnAsserted s (assertReset s)

theorem serveInitiator_event {c : Instr} {k : RequestKind} {judge : InitiatorJudge}
    (harm : (c, k, judge) ∈ initiatorArms) (s : State) :
    Event c (s.readied k) (takeInitiator k judge s) := by
  rw [takeInitiator]
  rcases serveInitiator_cases k judge (s.readied k) with h | ⟨i, w, ho, h⟩ <;> rw [h]
  · exact .idle
  · exact .request harm (State.readied_takes ho)

theorem serveManagement_event {c : Instr} {k : RequestKind} {judge : ManagementJudge}
    (harm : (c, k, judge) ∈ managementArms) (s : State) :
    Event c (s.readied k) (takeManagement k judge s) := by
  rw [takeManagement]
  rcases serveManagement_cases k judge (s.readied k) with h | ⟨w, ho, h⟩ <;> rw [h]
  · exact .idle
  · exact .managed harm (State.readied_takes ho)

theorem takeUndefined_event (s : State) :
    Event .undefinedRequestKind (s.readied .undefined) (takeUndefined s) := by
  by_cases h : ∃ m w, (s.readied .undefined).Offers m .undefined w
  · obtain ⟨m, w, ho⟩ := h
    have ht := State.readied_takes ho
    rw [takeUndefined, serveUndefined, ho.offered]
    cases m with
    | management => exact .undefinedManagement ht
    | initiator i =>
      simp only [State.leaseRestarted_eq]
      exact .undefined ht
  · rw [takeUndefined, serveUndefined, State.offered_eq_none fun m w ho => h ⟨m, w, ho⟩]
    exact .idle

theorem takeEngineTick_event {c : Instr} {s : State} (p : Prop) [Decidable p] :
    Event c s (if p then takeEngineTick s else s) := by
  split
  · exact .time .engineTick
  · exact .idle

/-- What one command does: the events of time that it brings first, and then its own event. -/
theorem exec_event {c : Instr} {s t : State} (h : exec c s = .next t) :
    ∃ u, TimeEvents s u ∧ Event c u t := by
  cases c <;> cases h
  case undefinedRequestKind => exact ⟨_, readied_events s _, takeUndefined_event s⟩
  case register | unregister | renew | claim | upgrade | downgrade | release | cancel | takeNotice | lookup =>
    exact ⟨_, readied_events s _, serveInitiator_event (by simp [initiatorArms]) s⟩
  case enable | disable | dormant | evict | clearQuarantine | clearCapture | inspectClaim | inspectInitiator
      | inspectWaiter =>
    exact ⟨_, readied_events s _, serveManagement_event (by simp [managementArms]) s⟩
  case tick => exact ⟨_, elapse_events _ s, .idle⟩
  case ownershipWindowEnd => exact ⟨_, runToWindowEnd_events s, .idle⟩
  all_goals refine ⟨s, .refl, ?_⟩
  case submission who m data => exact .control who m _
  case attentionEnableWrite who m data => exact .control who m _
  case flagClear who m data => exact .control who m _
  case windowWrite who addr data => exact .window who addr data
  case configWrite who reg data => exact .config who reg data
  case configRefusalClear who data => exact .refusalClear who _
  case takeOwnership who => exact .read who
  case checkQuery who granule kind => exact .query who granule kind
  case fenceDone => exact .answer 0
  case fenceDefer => exact .answer 1
  case fenceAnswerOtherKind code => exact .answer code
  case fenceIssue => exact .time .issue
  case directoryTick => exact .time .engineTick
  case fenceUnitTick => exact .time .fenceTick
  case fenceTimerExpiry => exact .expiry
  case waitExpiry | lapse => exact takeEngineTick_event _
  case resetn pres autoon mgrall => exact .released pres autoon mgrall
  case resetnAsserted => exact .fell

/-- What one step does, from the state `s'` that is `s` without the command taken. -/
theorem step_event {s t : State} (h : step s = .next t) :
    ∃ c s' u, s' = { s with pending := s'.pending } ∧ TimeEvents s' u ∧ Event c u t := by
  unfold step at h
  split at h
  · cases h
    exact ⟨.tick, s, _, rfl, elapse_events 1 s, .idle⟩
  · rename_i c rest _
    obtain ⟨u, hu, ht⟩ := exec_event h
    exact ⟨c, { s with pending := rest }, u, rfl, hu, ht⟩

/-- A law that does not see the queue of commands, and that the events of time and the events of the commands keep, is
kept by every step. -/
theorem step_keeps {P : State → Prop} (hpending : ∀ s rest, P s → P { s with pending := rest })
    (htime : ∀ s t, TimeEvent s t → P s → P t) (hevent : ∀ c s t, Event c s t → P s → P t) {s t : State}
    (hs : P s) (hstep : step s = .next t) : P t := by
  obtain ⟨c, s', u, hs', hu, ht⟩ := step_event hstep
  refine hevent c u t ht (hu.preserve htime ?_)
  rw [hs']
  exact hpending s _ hs

end Sys2Proof.Machine

/-! PROOF. What a management request and a bus write make of the state, said once, and the state laws that every step
keeps: OFF, DORMANT, the flags of the mailboxes, presence, the managers and the counts of time. -/

namespace Sys2Proof.Machine

/-! ### What a management request makes of the state -/

/-- What a management request of this kind makes of the state before its completion. -/
inductive ManagementMove (s : State) : RequestKind → State → Prop where
  | keep {k : RequestKind} (hk : k = .enable ∨ k = .disable → s.dirState ≠ .quiescing) : ManagementMove s k s
  | enabled (hd : s.dirState = .off ∨ s.dirState = .quiescing) :
      ManagementMove s .enable { s with dirState := .on }
  | tornDown (hd : s.dirState ≠ .off) : ManagementMove s .disable (teardown s)
  | quiesced (hd : s.dirState = .on) : ManagementMove s .dormant { s with dirState := .quiescing }
  | evicted (i : Initiator) (hd : s.dirState ≠ .off) (ha : s.tables.inits[i].state.isActive = true) :
      ManagementMove s .evict { s with tables := evictTables s.tables i }
  | cleared (n : ClaimNo) (c : Claim) (hd : s.dirState ≠ .off) (hg : s.tables.claims.get n = some c)
      (hq : c.phase = .quarantined) :
      ManagementMove s .clearQuarantine
        { s with tables := grantPass { s.tables with claims := s.tables.claims.free n } }
  | uncaptured : ManagementMove s .clearCapture { s with capture := none, overflow := false }

theorem judgeEnable_move (w : RequestWords) (s : State) : ManagementMove s .enable (judgeEnable w s).1 := by
  unfold judgeEnable
  split
  · rename_i hd; exact .enabled (.inl hd)
  · rename_i hd; exact .enabled (.inr hd)
  all_goals (rename_i hd; exact .keep fun _ => by rw [hd]; exact nofun)

theorem judgeDisable_move (w : RequestWords) (s : State) : ManagementMove s .disable (judgeDisable w s).1 := by
  unfold judgeDisable
  split
  · rename_i hd; exact .keep fun _ => by rw [hd]; exact nofun
  all_goals (rename_i hd; exact .tornDown (by rw [hd]; exact nofun))

theorem judgeDormant_move (w : RequestWords) (s : State) : ManagementMove s .dormant (judgeDormant w s).1 := by
  unfold judgeDormant
  split
  · exact .keep (by simp)
  · rename_i hd; exact .quiesced hd
  all_goals exact .keep (by simp)

theorem judgeEvict_move (w : RequestWords) (s : State) : ManagementMove s .evict (judgeEvict w s).1 := by
  unfold judgeEvict
  split
  · exact .keep (by simp)
  · rename_i hd
    split
    · exact .keep (by simp)
    · rename_i i _
      split
      · rename_i l hl; exact .evicted i hd (by rw [hl]; rfl)
      all_goals exact .keep (by simp)

theorem judgeClearQuarantine_move (w : RequestWords) (s : State) :
    ManagementMove s .clearQuarantine (judgeClearQuarantine w s).1 := by
  unfold judgeClearQuarantine
  split
  · exact .keep (by simp)
  · rename_i hd
    split
    · exact .keep (by simp)
    · rename_i n _
      split
      · rename_i h
        obtain ⟨c, hg, hq⟩ := Option.map_eq_some_iff.mp h
        exact .cleared n c hd hg hq
      · exact .keep (by simp)

theorem judgeInspectClaim_state (w : RequestWords) (s : State) : (judgeInspectClaim w s).1 = s := by
  unfold judgeInspectClaim
  split <;> rfl

theorem judgeInspectInitiator_state (w : RequestWords) (s : State) : (judgeInspectInitiator w s).1 = s := by
  unfold judgeInspectInitiator
  split
  · rfl
  · split <;> rfl

theorem judgeInspectWaiter_state (w : RequestWords) (s : State) : (judgeInspectWaiter w s).1 = s := by
  unfold judgeInspectWaiter
  split
  · rfl
  · split <;> rfl

theorem managementMove {c : Instr} {k : RequestKind} {judge : ManagementJudge}
    (h : (c, k, judge) ∈ managementArms) (w : RequestWords) (s : State) : ManagementMove s k (judge w s).1 := by
  rcases mem_managementArms.mp h with ⟨-, rfl, rfl⟩ | ⟨-, rfl, rfl⟩ | ⟨-, rfl, rfl⟩ | ⟨-, rfl, rfl⟩
    | ⟨-, rfl, rfl⟩ | ⟨-, rfl, rfl⟩ | ⟨-, rfl, rfl⟩ | ⟨-, rfl, rfl⟩ | ⟨-, rfl, rfl⟩
  · exact judgeEnable_move w s
  · exact judgeDisable_move w s
  · exact judgeDormant_move w s
  · exact judgeEvict_move w s
  · exact judgeClearQuarantine_move w s
  · exact .uncaptured
  · rw [judgeInspectClaim_state]; exact .keep (by simp)
  · rw [judgeInspectInitiator_state]; exact .keep (by simp)
  · rw [judgeInspectWaiter_state]; exact .keep (by simp)

/-! ### What a bus write makes of the state -/

/-- What a write of `data` to a word of this region makes of the state, its response apart. -/
inductive WriteMove (s : State) (who : Initiator) (data : Word) : Region → State → Prop where
  | keep {r : Region} : WriteMove s who data r s
  | overrun (word : Nat) : WriteMove s who data (.management word) { s with mgmt := { s.mgmt with ovr := true } }
  | managementControl : WriteMove s who data (.management 0) (writeManagementControl who data s)
  | managementWord (word : Nat) (hw : word ≠ 0) :
      WriteMove s who data (.management word) { s with mgmt := s.mgmt.writeWord word data }
  | config (word : Nat) (reg : ConfigReg) (hreg : configRegAt word = some reg) (hd : s.dirState = .off)
      (hv : configInRange reg data.toNat = true) :
      WriteMove s who data (.config word) { s with config := s.config.set reg data.toNat }
  | refused (word : Nat) (b : Bool) : WriteMove s who data (.config word) { s with configRefused := b }
  | initiatorControl (i : Initiator) : WriteMove s who data (.mailbox i 0) (writeInitiatorControl i data s)
  | initiatorWord (i : Initiator) (word : Nat) (hw : word ≠ 0) :
      WriteMove s who data (.mailbox i word)
        { s with mailboxes := s.mailboxes.set i (s.mailboxes[i].writeWord word data) }

theorem writeManagement_move (who : Initiator) (word : Nat) (data : Word) (s : State) :
    WriteMove s who data (.management word) (writeManagement who word data s) := by
  unfold writeManagement
  split
  · exact .overrun word
  · split
    · rename_i h; subst h; exact .managementControl
    · rename_i h; exact .managementWord word h

theorem writeConfig_move (who : Initiator) (word : Nat) (data : Word) (s : State) :
    WriteMove s who data (.config word) (writeConfig word data s) := by
  unfold writeConfig
  split
  · rename_i reg hreg
    unfold writeConfigReg
    split
    · rename_i h; exact .config word reg hreg h.1 h.2
    · exact .refused word true
  · split
    · exact .refused word false
    · exact .keep

theorem writeInitiator_move (who i : Initiator) (word : Nat) (data : Word) (s : State) :
    WriteMove s who data (.mailbox i word) (writeInitiator i word data s) := by
  unfold writeInitiator
  split
  · rename_i h; subst h; exact .initiatorControl i
  · rename_i h; exact .initiatorWord i word h

theorem writeRegion_move (who : Initiator) (data : Word) (s : State) (r : Region) :
    WriteMove s who data r (writeRegion who data s r) := by
  cases r with
  | management word => exact writeManagement_move who word data s
  | config word => exact writeConfig_move who word data s
  | mailbox i word => exact writeInitiator_move who i word data s
  | status word => exact .keep
  | unused => exact .keep

/-- A property that no response changes holds after a write when it holds after what the write makes of the state. -/
theorem busWrite_keeps {P : State → Prop} (hresp : ∀ s b, P s → P { s with busOut := b })
    {who : Initiator} {addr : BitVec 8} {data : Word} {s : State} (hs : P s)
    (hmove : ∀ v, WriteMove s who data (regionOf addr) v → P v) : P (busWrite who addr data s) := by
  unfold busWrite
  split
  · exact hresp s _ hs
  · exact hresp _ _ (hmove _ (writeRegion_move who data s _))

/-! ### What a query and an answer make of the state -/

theorem takeQuery_eq (who : Initiator) (granule : Granule) (kind : AccessKind) (s : State) :
    ∃ verdict capture overflow, takeQuery who granule kind s
      = { s with verdictOut := verdict, capture := capture, overflow := overflow } := by
  unfold takeQuery
  split
  · exact ⟨_, _, _, rfl⟩
  · unfold answerQuery
    split
    · exact ⟨_, _, _, rfl⟩
    · exact ⟨_, _, _, rfl⟩
    · unfold latchCapture
      split <;> exact ⟨_, _, _, rfl⟩

/-- An answer on the fence port ends the fence in flight, defers it, or is ignored (R101, R102). -/
theorem fenceAnswer_cases (code : BitVec 2) (s : State) :
    fenceAnswer code s = s
      ∨ (s.inReset = false ∧ ∃ i, s.flight.initiator = some i
          ∧ fenceAnswer code s = { s with flight := .idle, tables := doneOutcome s.tables i })
      ∨ (s.inReset = false ∧ ∃ i timer, s.flight = .timed i timer
          ∧ fenceAnswer code s = { s with flight := .deferred i }) := by
  unfold fenceAnswer
  split
  · exact .inl rfl
  · rename_i hr
    have hr : s.inReset = false := by simpa using hr
    split
    · unfold takeDone
      split
      · exact .inl rfl
      all_goals (rename_i hf; exact .inr (.inl ⟨hr, _, by rw [hf]; rfl, rfl⟩))
    · split
      · unfold takeDefer
        split
        · rename_i i timer hf; exact .inr (.inr ⟨hr, i, timer, hf, rfl⟩)
        all_goals exact .inl rfl
      · exact .inl rfl

/-- A tick at the fence unit is not taken, or lowers the timer, or fails the fence, or does nothing more (R103). -/
theorem takeFenceTick_cases (s : State) :
    takeFenceTick s = s
      ∨ (s.fenceTickReady = true ∧
        (takeFenceTick s = s.fenceTickTaken
          ∨ (∃ i timer, s.flight = .timed i timer ∧ 1 < timer
              ∧ takeFenceTick s = { s.fenceTickTaken with flight := .timed i (timer - 1) })
          ∨ ∃ i timer, s.flight = .timed i timer ∧ timer ≤ 1 ∧ takeFenceTick s = failFence i s.fenceTickTaken)) := by
  unfold takeFenceTick
  split
  · rename_i hready
    refine .inr ⟨hready, ?_⟩
    unfold tickFlight
    split
    · rename_i i timer hf
      split
      · rename_i ht; exact .inr (.inr ⟨i, timer, hf, ht, rfl⟩)
      · rename_i ht; exact .inr (.inl ⟨i, timer, hf, by omega, rfl⟩)
    all_goals exact .inl rfl
  · exact .inl rfl

/-- FENCE_TIMER_EXPIRY is not due, or fails the fence (R104). -/
theorem expireFenceTimer_cases (s : State) :
    expireFenceTimer s = s
      ∨ (s.fenceTickReady = true ∧ ∃ i timer, s.flight = .timed i timer ∧ timer ≤ 1
        ∧ expireFenceTimer s = failFence i s.fenceTickTaken) := by
  unfold expireFenceTimer
  split
  · rename_i i hf
    split
    · rename_i hready
      unfold FenceFlight.expiring at hf
      split at hf
      · rename_i j timer hj
        split at hf
        · rename_i ht
          cases hf
          exact .inr ⟨hready, i, timer, hj, ht, rfl⟩
        · cases hf
      all_goals cases hf
    · exact .inl rfl
  · exact .inl rfl

theorem fenceTickReady_iff {s : State} : s.fenceTickReady = true ↔
    s.inReset = false ∧ s.dirState ≠ .dormant ∧ s.fenceTick = true
      ∧ (s.issueDue = false ∨ s.fenceTickHeld = false) := by
  simp only [State.fenceTickReady, Bool.and_eq_true, Bool.not_eq_true', decide_eq_false_iff_not,
    Bool.and_eq_false_iff, and_assoc, ne_eq]

/-- An issue is not due, or takes the head of the fence queue (R97). -/
theorem issueFence_cases (s : State) :
    issueFence s = s
      ∨ (s.inReset = false ∧ ∃ i rest, s.flight = .idle ∧ s.tables.fenceQueue = i :: rest
        ∧ issueFence s = { s with
            tables := issueTables s.tables i rest
            flight := .timed i s.config.fenceLimit
            fenceTickHeld := false }) := by
  unfold issueFence
  split
  · exact .inl rfl
  · rename_i hr
    split
    · rename_i i rest hf hq; exact .inr ⟨by simpa using hr, i, rest, hf, hq, rfl⟩
    · exact .inl rfl

/-- A tick at the directory engine is not taken, or is the tick of the tables (R86). -/
theorem takeEngineTick_cases (s : State) :
    takeEngineTick s = s
      ∨ (s.inReset = false ∧ s.dirState ≠ .dormant ∧ s.engineTick = true
        ∧ takeEngineTick s = { s with tables := tickTables s.tables, engineTick := false }) := by
  unfold takeEngineTick
  split
  · rename_i h
    simp only [Bool.and_eq_true, Bool.not_eq_true', decide_eq_false_iff_not] at h
    exact .inr ⟨h.1.1, h.1.2, h.2, rfl⟩
  · exact .inl rfl

/-! ### The completion of a request -/

/-- The completion changes the one mailbox. -/
theorem State.complete_mailbox (s : State) (m x : MailboxId) (r : Reply) :
    (s.complete m r).mailbox x = if x = m then (s.mailbox x).complete r else s.mailbox x := by
  cases m with
  | management =>
    cases x with
    | management => simp [State.mailbox]
    | initiator j => simp [State.mailbox]
  | initiator i =>
    cases x with
    | management => simp [State.mailbox]
    | initiator j =>
      by_cases h : j = i
      · subst h; simp [State.mailbox]
      · simpa [State.mailbox, h] using (completedInitiator_complete s i r).others j h

theorem State.complete_dormancy (s : State) (m : MailboxId) (r : Reply) : DormancyJudged s (s.complete m r) m := by
  cases m with
  | management => exact (completedManagement_complete s r).dormancy
  | initiator i => exact (completedInitiator_complete s i r).dormancy

/-- A completion keeps the directory state, or brings a QUIESCING directory to DORMANT when no other mailbox is
BUSY (R171). -/
theorem State.complete_dirState_cases (s : State) (m : MailboxId) (r : Reply) :
    (s.complete m r).dirState = s.dirState
      ∨ (s.dirState = .quiescing ∧ (∀ x, x ≠ m → (s.mailbox x).busy = false)
        ∧ (s.complete m r).dirState = .dormant) := by
  have hd := s.complete_dormancy m r
  by_cases hb : ∃ x, x ≠ m ∧ (s.mailbox x).busy = true
  · exact .inl (hd.kept (.inr hb))
  · have hb' : ∀ x, x ≠ m → (s.mailbox x).busy = false := by
      simpa [not_exists, Bool.not_eq_true] using hb
    by_cases hq : s.dirState = .quiescing
    · exact .inr ⟨hq, hb', hd.entered hq hb'⟩
    · exact .inl (hd.kept (.inl hq))

theorem State.complete_dirState_off {s : State} {m : MailboxId} {r : Reply}
    (h : (s.complete m r).dirState = .off) : s.dirState = .off := by
  rcases s.complete_dirState_cases m r with hd | ⟨-, -, hd⟩
  · rwa [hd] at h
  · rw [hd] at h
    cases h

end Sys2Proof.Machine

/-! PROOF. The laws of OFF and of DORMANT, of the flags of the mailboxes, of presence and of the managers: each is kept by
every event of `Event`, and so by every step. -/

namespace Sys2Proof.Machine

/-! ### The law of OFF (R166) -/

/-- The tables as OFF has them. -/
structure Tables.Empty (tb : Tables) : Prop where
  claims : tb.claims = []
  queue : tb.queue = []
  fenceQueue : tb.fenceQueue = []
  inits : ∀ i : Initiator, tb.inits[i].notices = []
    ∧ (tb.inits[i].state = .unregistered ∨ tb.inits[i].state = .absent)

theorem State.offLaw_iff {s : State} : s.OffLaw ↔ (s.dirState = .off → s.tables.Empty ∧ s.flight = .idle) := by
  refine forall_congr' fun _ => ⟨?_, ?_⟩
  · rintro ⟨hc, hq, hf, hi, hinits⟩
    exact ⟨⟨hc, hq, hf, hinits⟩, hi⟩
  · rintro ⟨⟨hc, hq, hf, hinits⟩, hi⟩
    exact ⟨hc, hq, hf, hi, hinits⟩

theorem State.OffLaw.of_not_off {s : State} (h : s.dirState ≠ .off) : s.OffLaw :=
  fun hoff => absurd hoff h

theorem tickLease_of_not_active {tb : Tables} {i : Initiator} (h : tb.inits[i].state.isActive = false) :
    tickLease tb i = tb := by
  unfold tickLease
  split
  · rename_i hs; rw [hs] at h; cases h
  all_goals rfl

theorem Tables.Empty.not_active {tb : Tables} (h : tb.Empty) (i : Initiator) :
    tb.inits[i].state.isActive = false := by
  rcases (h.inits i).2 with hs | hs <;> rw [hs] <;> rfl

/-- A tick finds nothing to lower in OFF. -/
theorem Tables.Empty.tickTables {tb : Tables} (h : tb.Empty) : tickTables tb = tb := by
  have hexpiry : tickExpiry tb = tb := by
    rw [tickExpiry_of_none_expires (by simp [h.queue]), h.queue, List.map_nil, ← h.queue]
  have hleases : tickLeases tb = tb :=
    List.foldlRecOn (motive := fun tb' => tb' = tb) (List.finRange 8) tickLease rfl fun tb' htb' i _ => by
      rw [htb', tickLease_of_not_active (h.not_active i)]
  have hends : ∀ i, leaseEnds tb i = false := by
    intro i
    unfold leaseEnds
    rcases (h.inits i).2 with hs | hs <;> rw [hs]
  have hpass : (tb.queue.any Waiter.expires || (List.finRange 8).any (leaseEnds tb)) = false := by
    simp [h.queue, hends]
  rw [Machine.tickTables, hpass, hexpiry, hleases, grantPassIf_false]

theorem mapInits_get (f : InitRecord → InitRecord) (inits : Vector InitRecord 8) (i : Initiator) :
    (mapInits f inits)[i] = f inits[i] := by
  fin_cases i <;> rfl

theorem resetTables_inits (present : PresentCount) (i : Initiator) :
    (resetTables present).inits[i] = resetInit present i.val := by
  fin_cases i <;> rfl

theorem teardownTables_empty (tb : Tables) : (teardownTables tb).Empty where
  claims := rfl
  queue := rfl
  fenceQueue := rfl
  inits i := by
    rw [show (teardownTables tb).inits[i] = teardownInit tb.inits[i] from mapInits_get _ _ i]
    refine ⟨rfl, ?_⟩
    unfold teardownInit
    dsimp only
    split
    · exact .inr rfl
    · exact .inl rfl

theorem resetTables_empty (present : PresentCount) : (resetTables present).Empty where
  claims := rfl
  queue := rfl
  fenceQueue := rfl
  inits i := by
    rw [resetTables_inits, resetInit]
    refine ⟨rfl, ?_⟩
    split
    · exact .inl rfl
    · exact .inr rfl

theorem State.OffLaw.time {s t : State} (h : s.OffLaw) (he : TimeEvent s t) : t.OffLaw := by
  rw [State.offLaw_iff] at h ⊢
  cases he with
  | engineTick =>
    intro hoff
    rw [State.takeEngineTick_dirState] at hoff
    obtain ⟨hempty, hidle⟩ := h hoff
    refine ⟨?_, by rwa [State.takeEngineTick_flight]⟩
    rcases takeEngineTick_cases s with ht | ⟨-, -, -, ht⟩ <;> rw [ht]
    · exact hempty
    · simpa only [hempty.tickTables] using hempty
  | issue =>
    intro hoff
    rw [State.issueFence_dirState] at hoff
    obtain ⟨hempty, hidle⟩ := h hoff
    rcases issueFence_cases s with ht | ⟨-, i, rest, -, hq, -⟩
    · rw [ht]
      exact ⟨hempty, hidle⟩
    · rw [hempty.fenceQueue] at hq
      cases hq
  | fenceTick =>
    intro hoff
    rw [State.takeFenceTick_dirState] at hoff
    obtain ⟨hempty, hidle⟩ := h hoff
    rcases takeFenceTick_cases s with ht | ⟨-, ht | ⟨i, timer, hf, -⟩ | ⟨i, timer, hf, -⟩⟩
    · rw [ht]
      exact ⟨hempty, hidle⟩
    · rw [ht]
      exact ⟨hempty, hidle⟩
    all_goals
      rw [hidle] at hf
      cases hf
  | periods n hr => exact h

/-- In OFF the gate refuses every initiator request, and no lease is restarted (R20, R21). -/
theorem State.judgeInitiator_of_off {s : State} (h : s.dirState = .off) (k : RequestKind) (judge : InitiatorJudge)
    (i : Initiator) (w : RequestWords) : s.judgeInitiator k judge i w = (s.tables, .bare .off) :=
  State.judgeInitiator_of_refusal (.off h)

/-- A completion brings no directory to OFF. -/
theorem State.OffLaw.completed {s : State} {m : MailboxId} {r : Reply} (h : s.OffLaw) :
    (s.complete m r).OffLaw := by
  rw [State.offLaw_iff] at h ⊢
  intro hoff
  simpa using h (State.complete_dirState_off hoff)

theorem State.OffLaw.managed {s v : State} {k : RequestKind} (h : s.OffLaw) (hm : ManagementMove s k v) :
    v.OffLaw := by
  cases hm with
  | keep _ => exact h
  | enabled _ => exact .of_not_off nofun
  | tornDown _ => exact State.offLaw_iff.mpr fun _ => ⟨teardownTables_empty _, rfl⟩
  | quiesced _ => exact .of_not_off nofun
  | evicted i hd _ => exact .of_not_off hd
  | cleared n c hd _ _ => exact .of_not_off hd
  | uncaptured => exact h

theorem DirState.submitted_eq_off {d : DirState} : d.submitted = .off ↔ d = .off := by
  cases d <;> simp [DirState.submitted]

theorem DirState.submitted_ne_dormant (d : DirState) : d.submitted ≠ .dormant := by
  cases d <;> simp [DirState.submitted]

theorem State.OffLaw.written {s v : State} {who : Initiator} {data : Word} {r : Region} (h : s.OffLaw)
    (hm : WriteMove s who data r v) : v.OffLaw := by
  cases hm with
  | keep => exact h
  | overrun _ => exact h
  | managementWord _ _ => exact h
  | config _ _ _ _ _ => exact h
  | refused _ _ => exact h
  | initiatorWord _ _ _ => exact h
  | managementControl =>
    intro hoff
    refine h ?_
    simp only [writeManagementControl] at hoff
    split at hoff
    · exact DirState.submitted_eq_off.mp hoff
    · exact hoff
  | initiatorControl i =>
    intro hoff
    refine h ?_
    simp only [writeInitiatorControl] at hoff
    split at hoff
    · exact DirState.submitted_eq_off.mp hoff
    · exact hoff

theorem State.OffLaw.event {c : Instr} {s t : State} (h : s.OffLaw) (he : Event c s t) : t.OffLaw := by
  have hwrite : ∀ who addr data, (busWrite who addr data s).OffLaw := fun who addr data =>
    busWrite_keeps (P := State.OffLaw) (fun _ _ hv => hv) h fun _ hm => h.written hm
  cases he with
  | idle => exact h
  | request harm _ =>
    refine .completed fun hoff => ?_
    rw [State.judgeInitiator_of_off (show s.dirState = .off from hoff)]
    exact h hoff
  | undefined _ =>
    refine .completed fun hoff => ?_
    rw [State.afterTake_of_off (show s.dirState = .off from hoff)]
    exact h hoff
  | undefinedManagement _ => exact .completed h
  | managed harm _ => exact .completed (h.managed (managementMove harm _ s))
  | control who m data => exact hwrite _ _ _
  | window who addr data => exact hwrite _ _ _
  | config who reg data => exact hwrite _ _ _
  | refusalClear who data => exact hwrite _ _ _
  | read who => exact h
  | query who granule kind =>
    obtain ⟨_, _, _, hq⟩ := takeQuery_eq who granule kind s
    rw [hq]
    exact h
  | answer code =>
    rcases fenceAnswer_cases code s with ht | ⟨-, i, hf, ht⟩ | ⟨-, i, timer, hf, ht⟩
    · rw [ht]
      exact h
    all_goals
      refine .of_not_off fun hoff => ?_
      rw [ht] at hoff
      rw [(State.offLaw_iff.mp h hoff).2] at hf
      cases hf
  | expiry =>
    rcases expireFenceTimer_cases s with ht | ⟨-, i, timer, hf, -, ht⟩
    · rw [ht]
      exact h
    · refine .of_not_off fun hoff => ?_
      rw [ht] at hoff
      rw [(State.offLaw_iff.mp h hoff).2] at hf
      cases hf
  | time he => exact h.time he
  | released pres autoon mgrall => exact State.offLaw_iff.mpr fun _ => ⟨resetTables_empty _, rfl⟩
  | fell => exact State.offLaw_iff.mpr fun hoff => ⟨(State.offLaw_iff.mp h hoff).1, rfl⟩

theorem step_keeps_offLaw {s t : State} (h : s.OffLaw) (hstep : step s = .next t) : t.OffLaw :=
  step_keeps (P := State.OffLaw) (fun _ _ h => h) (fun _ _ he h => h.time he) (fun _ _ _ he h => h.event he) h hstep

/-! ### The law of DORMANT (R171, R172, R177) -/

theorem State.DormantLaw.of_not_dormant {s : State} (h : s.dirState ≠ .dormant) : s.DormantLaw :=
  fun hd => absurd hd h

theorem State.DormantLaw.time {s t : State} (h : s.DormantLaw) (he : TimeEvent s t) : t.DormantLaw := by
  cases he with
  | engineTick =>
    rcases takeEngineTick_cases s with ht | ⟨-, hd, -, ht⟩ <;> rw [ht]
    · exact h
    · exact .of_not_dormant hd
  | issue =>
    rcases issueFence_cases s with ht | ⟨-, i, rest, -, -, ht⟩ <;> rw [ht] <;> exact h
  | fenceTick =>
    rcases takeFenceTick_cases s with ht | ⟨hready, -⟩
    · rw [ht]
      exact h
    · exact .of_not_dormant (by rw [State.takeFenceTick_dirState]; exact (fenceTickReady_iff.mp hready).2.1)
  | periods n hr =>
    intro hd
    obtain ⟨hb, hengine, hfence⟩ := h hd
    have hnone : s.delivers n = false := by simp [State.delivers, show s.dirState = .dormant from hd]
    exact ⟨hb, by simp [advance, hengine, hnone], by simp [advance, hfence, hnone]⟩

/-- A request that is taken is BUSY, so the directory is not DORMANT then; and where its completion brings it to
DORMANT, the ticks were taken before (R171, R177). -/
theorem State.DormantLaw.completed {s v : State} {m : MailboxId} {k : RequestKind} {w : RequestWords} {r : Reply}
    (htakes : s.Takes m k w) (h : s.DormantLaw) (hmailbox : ∀ x, v.mailbox x = s.mailbox x)
    (hticks : v.engineTick = s.engineTick ∧ v.fenceTick = s.fenceTick)
    (hkeep : v.dirState = .dormant → s.dirState = .dormant)
    (henter : v.dirState = .quiescing → (s.dirState = .quiescing ∧ k ≠ .enable ∧ k ≠ .disable)
      ∨ (s.dirState = .on ∧ k = .dormant)) : (v.complete m r).DormantLaw := by
  intro hd
  have hbusy := htakes.toOffers.busy
  have hnot : v.dirState ≠ .dormant := fun hv => by
    rw [(h (hkeep hv)).1 m] at hbusy
    cases hbusy
  rcases v.complete_dirState_cases m r with hsame | ⟨hq, hothers, -⟩
  · exact absurd (hsame ▸ hd) hnot
  · simp only [hmailbox] at hothers
    have hquiet := htakes.prompt ⟨henter hq, hothers⟩
    simp only [State.TickWaits, not_or, Bool.not_eq_true] at hquiet
    refine ⟨fun x => ?_, by simpa [hticks.1] using hquiet.1, by simpa [hticks.2] using hquiet.2⟩
    rw [State.complete_mailbox]
    split
    · rfl
    · rename_i hx
      rw [hmailbox, hothers x hx]

/-- A management request moves no mailbox and no tick before its completion. -/
theorem ManagementMove.mailbox {s v : State} {k : RequestKind} (h : ManagementMove s k v) (x : MailboxId) :
    v.mailbox x = s.mailbox x := by
  cases h <;> rfl

theorem ManagementMove.ticks {s v : State} {k : RequestKind} (h : ManagementMove s k v) :
    v.engineTick = s.engineTick ∧ v.fenceTick = s.fenceTick := by
  cases h <;> exact ⟨rfl, rfl⟩

/-- A management request brings no directory to DORMANT before its completion. -/
theorem ManagementMove.dormant {s v : State} {k : RequestKind} (h : ManagementMove s k v)
    (hd : v.dirState = .dormant) : s.dirState = .dormant := by
  cases h with
  | enabled _ => cases hd
  | tornDown _ => cases hd
  | quiesced _ => cases hd
  | keep _ => exact hd
  | evicted _ _ _ => exact hd
  | cleared _ _ _ _ _ => exact hd
  | uncaptured => exact hd

/-- A directory that is QUIESCING before the completion of a management request was so, or became so by DORMANT. -/
theorem ManagementMove.quiescing {s v : State} {k : RequestKind} (h : ManagementMove s k v)
    (hq : v.dirState = .quiescing) :
    (s.dirState = .quiescing ∧ k ≠ .enable ∧ k ≠ .disable) ∨ (s.dirState = .on ∧ k = .dormant) := by
  cases h with
  | enabled _ => cases hq
  | tornDown _ => cases hq
  | quiesced hd => exact .inr ⟨hd, rfl⟩
  | keep hk => exact .inl ⟨hq, fun h => hk (.inl h) hq, fun h => hk (.inr h) hq⟩
  | evicted _ _ _ => exact .inl ⟨hq, nofun, nofun⟩
  | cleared _ _ _ _ _ => exact .inl ⟨hq, nofun, nofun⟩
  | uncaptured => exact .inl ⟨hq, nofun, nofun⟩

theorem writeControl_busy_of_not_submits {mb : Mailbox} {data : Word} (h : mb.submits data = false) :
    (mb.writeControl data).busy = mb.busy := by
  unfold Mailbox.writeControl
  dsimp only
  split
  · rename_i hstart
    have hb : mb.busy = true := by simpa [Mailbox.submits, hstart] using h
    rw [if_pos hb]
    rfl
  · rfl

theorem writeWord_busy (mb : Mailbox) (word : Nat) (data : Word) : (mb.writeWord word data).busy = mb.busy := by
  unfold Mailbox.writeWord
  split
  · rfl
  · split <;> rfl

/-- The mailbox of initiator `i` is set. -/
theorem State.mailbox_set (s : State) (i : Initiator) (mb : Mailbox) (x : MailboxId) :
    State.mailbox { s with mailboxes := s.mailboxes.set i mb } x =
      if x = .initiator i then mb else s.mailbox x := by
  cases x with
  | management => rfl
  | initiator j =>
    by_cases h : i = j
    · simp [State.mailbox, h]
    · have hv : i.val ≠ j.val := fun hv => h (Fin.ext hv)
      simp [State.mailbox, hv, Ne.symm h]

/-- A write leaves a DORMANT directory alone unless it submits a request. -/
theorem State.DormantLaw.written {s v : State} {who : Initiator} {data : Word} {r : Region} (h : s.DormantLaw)
    (hm : WriteMove s who data r v) : v.DormantLaw := by
  have hset : ∀ (i : Initiator) (mb : Mailbox), mb.busy = s.mailboxes[i].busy →
      State.DormantLaw { s with mailboxes := s.mailboxes.set i mb } := by
    intro i mb hmb hd
    obtain ⟨hb, hticks⟩ := h hd
    refine ⟨fun x => ?_, hticks⟩
    rw [State.mailbox_set]
    split
    · exact hmb.trans (hb (.initiator i))
    · exact hb x
  have hmgmt : ∀ mb : Mailbox, mb.busy = s.mgmt.busy → State.DormantLaw { s with mgmt := mb } := by
    intro mb hmb hd
    obtain ⟨hb, hticks⟩ := h hd
    refine ⟨fun x => ?_, hticks⟩
    cases x with
    | management => exact hmb.trans (hb .management)
    | initiator j => exact hb (.initiator j)
  cases hm with
  | keep => exact h
  | overrun _ => exact hmgmt _ rfl
  | managementWord _ _ => exact hmgmt _ (writeWord_busy _ _ _)
  | config _ _ _ _ _ => exact h
  | refused _ _ => exact h
  | initiatorWord i _ _ => exact hset i _ (writeWord_busy _ _ _)
  | managementControl =>
    cases hsub : s.mgmt.submits data with
    | true => exact .of_not_dormant (by simpa [writeManagementControl, hsub] using s.dirState.submitted_ne_dormant)
    | false =>
      have := hmgmt _ (writeControl_busy_of_not_submits hsub)
      intro hd
      exact this (by simpa [writeManagementControl, hsub] using hd)
  | initiatorControl i =>
    cases hsub : s.mailboxes[i].submits data with
    | true =>
      refine .of_not_dormant ?_
      simp only [writeInitiatorControl, hsub, if_true]
      exact s.dirState.submitted_ne_dormant
    | false =>
      have := hset i _ (writeControl_busy_of_not_submits hsub)
      intro hd
      simp only [writeInitiatorControl, hsub, Bool.false_eq_true, if_false] at hd
      exact this hd

theorem State.assertReset_mailbox (s : State) (x : MailboxId) :
    (assertReset s).mailbox x = (s.mailbox x).abandon := by
  cases x with
  | management => rfl
  | initiator i => exact State.assertReset_mailboxes s i

theorem releaseReset_mailbox (pres : BitVec 2) (autoon mgrall : Bool) (s : State) (x : MailboxId) :
    (releaseReset pres autoon mgrall s).mailbox x = resetMailbox := by
  cases x with
  | management => rfl
  | initiator i => simp [State.mailbox, releaseReset]

theorem State.DormantLaw.event {c : Instr} {s t : State} (h : s.DormantLaw) (he : Event c s t) : t.DormantLaw := by
  have hwrite : ∀ who addr data, (busWrite who addr data s).DormantLaw := fun who addr data =>
    busWrite_keeps (P := State.DormantLaw) (fun _ _ hv => hv) h fun _ hm => h.written hm
  cases he with
  | idle => exact h
  | request harm htakes =>
    obtain ⟨h1, h2, -⟩ := initiatorArm_kind_ne_management harm
    exact h.completed htakes (fun x => by cases x <;> rfl) ⟨rfl, rfl⟩ id fun hq => .inl ⟨hq, h1, h2⟩
  | undefined htakes =>
    exact h.completed htakes (fun x => by cases x <;> rfl) ⟨rfl, rfl⟩ id fun hq => .inl ⟨hq, nofun, nofun⟩
  | undefinedManagement htakes =>
    exact h.completed htakes (fun _ => rfl) ⟨rfl, rfl⟩ id fun hq => .inl ⟨hq, nofun, nofun⟩
  | @managed _ _ k judge w harm htakes =>
    have hmove := managementMove harm w s
    exact h.completed htakes hmove.mailbox hmove.ticks hmove.dormant hmove.quiescing
  | control who m data => exact hwrite _ _ _
  | window who addr data => exact hwrite _ _ _
  | config who reg data => exact hwrite _ _ _
  | refusalClear who data => exact hwrite _ _ _
  | read who => exact h
  | query who granule kind =>
    obtain ⟨_, _, _, hq⟩ := takeQuery_eq who granule kind s
    rw [hq]
    exact h
  | answer code =>
    rcases fenceAnswer_cases code s with ht | ⟨-, i, -, ht⟩ | ⟨-, i, timer, -, ht⟩ <;> rw [ht] <;> exact h
  | expiry =>
    rcases expireFenceTimer_cases s with ht | ⟨hready, i, timer, -, -, ht⟩ <;> rw [ht]
    · exact h
    · exact .of_not_dormant (fenceTickReady_iff.mp hready).2.1
  | time he => exact h.time he
  | released pres autoon mgrall =>
    refine .of_not_dormant ?_
    simp only [releaseReset]
    cases autoon <;> simp
  | fell =>
    intro hd
    obtain ⟨-, hticks⟩ := h hd
    exact ⟨fun x => by rw [State.assertReset_mailbox]; rfl, hticks⟩

end Sys2Proof.Machine

/-! PROOF. What one command does to the tables, RESETN apart, with the command named; and what every operation over the
tables leaves of the initiator table and of the ticket counter.  From these follow the laws of presence (R71), and which
commands move generations and the ticket counter (R66, R73). -/

namespace Sys2Proof.Machine

/-! ### What one command does to the tables -/

/-- What the command `c`, RESETN apart, makes of the tables of `s`; it is the `TablesStep` of a known command. -/
inductive TablesMove (c : Instr) (s : State) : Tables → Prop where
  | keep : TablesMove c s s.tables
  | taken (i : Initiator) (hr : s.inReset = false) : TablesMove c s (s.afterTake i)
  | judged (k : RequestKind) (judge : InitiatorJudge) (i : Initiator) (w : RequestWords)
      (hr : s.inReset = false) (harm : (c, k, judge) ∈ initiatorArms)
      (hg : gate s.dirState s.tables.inits[i].state k = none) :
      TablesMove c s (judge s.config i w (s.afterTake i)).1
  | evicted (i : Initiator) (hr : s.inReset = false) (ha : s.tables.inits[i].state.isActive = true) :
      TablesMove c s (evictTables s.tables i)
  | cleared (n : ClaimNo) (d : Claim) (hr : s.inReset = false) (hg : s.tables.claims.get n = some d)
      (hq : d.phase = .quarantined) :
      TablesMove c s (grantPass { s.tables with claims := s.tables.claims.free n })
  | tornDown (hr : s.inReset = false) : TablesMove c s (teardownTables s.tables)
  | ticked (hr : s.inReset = false) : TablesMove c s (tickTables s.tables)
  | issued (i : Initiator) (rest : List Initiator) (hr : s.inReset = false) (hf : s.flight = .idle)
      (hq : s.tables.fenceQueue = i :: rest) : TablesMove c s (issueTables s.tables i rest)
  | done (i : Initiator) (hr : s.inReset = false) (hf : s.flight.initiator = some i) :
      TablesMove c s (doneOutcome s.tables i)
  | failed (i : Initiator) (hr : s.inReset = false) (hf : s.flight.initiator = some i) :
      TablesMove c s (failedOutcome s.tables i)

theorem TablesMove.step {c : Instr} {s : State} {tb : Tables} (h : TablesMove c s tb) : TablesStep s tb := by
  cases h with
  | keep => exact .keep
  | taken i hr => exact .taken i hr
  | judged k judge i w hr harm hg => exact .judged k judge i w hr (mem_initiatorJudges_of_arm harm) hg
  | evicted i hr ha => exact .evicted i hr ha
  | cleared n d hr hg hq => exact .cleared n d hr hg hq
  | tornDown hr => exact .tornDown hr
  | ticked hr => exact .ticked hr
  | issued i rest hr hf hq => exact .issued i rest hr hf hq
  | done i hr hf => exact .done i hr hf
  | failed i hr hf => exact .failed i hr hf

/-- Only the judge of a request depends on the command. -/
theorem TablesMove.judged_or {c : Instr} {s : State} {tb : Tables} (h : TablesMove c s tb) :
    (∃ k judge i w, (c, k, judge) ∈ initiatorArms ∧ gate s.dirState s.tables.inits[i].state k = none
      ∧ tb = (judge s.config i w (s.afterTake i)).1) ∨ ∀ c', TablesMove c' s tb := by
  cases h with
  | judged k judge i w _ harm hg => exact .inl ⟨k, judge, i, w, harm, hg, rfl⟩
  | keep => exact .inr fun _ => .keep
  | taken i hr => exact .inr fun _ => .taken i hr
  | evicted i hr ha => exact .inr fun _ => .evicted i hr ha
  | cleared n d hr hg hq => exact .inr fun _ => .cleared n d hr hg hq
  | tornDown hr => exact .inr fun _ => .tornDown hr
  | ticked hr => exact .inr fun _ => .ticked hr
  | issued i rest hr hf hq => exact .inr fun _ => .issued i rest hr hf hq
  | done i hr hf => exact .inr fun _ => .done i hr hf
  | failed i hr hf => exact .inr fun _ => .failed i hr hf

theorem TimeEvent.tablesMove {c : Instr} {s t : State} (h : TimeEvent s t) : TablesMove c s t.tables := by
  cases h with
  | engineTick =>
    rcases takeEngineTick_cases s with ht | ⟨hr, -, -, ht⟩ <;> rw [ht]
    · exact .keep
    · exact .ticked hr
  | issue =>
    rcases issueFence_cases s with ht | ⟨hr, i, rest, hf, hq, ht⟩ <;> rw [ht]
    · exact .keep
    · exact .issued i rest hr hf hq
  | fenceTick =>
    rcases takeFenceTick_cases s with ht | ⟨hready, ht | ⟨i, timer, -, -, ht⟩ | ⟨i, timer, hf, -, ht⟩⟩ <;> rw [ht]
    · exact .keep
    · exact .keep
    · exact .keep
    · exact .failed i (fenceTickReady_iff.mp hready).1 (by rw [hf]; rfl)
  | periods n _ => exact .keep

theorem ManagementMove.tablesMove {c : Instr} {s v : State} {k : RequestKind} (h : ManagementMove s k v)
    (hr : s.inReset = false) : TablesMove c s v.tables := by
  cases h with
  | keep _ => exact .keep
  | enabled _ => exact .keep
  | tornDown _ => exact .tornDown hr
  | quiesced _ => exact .keep
  | evicted i _ ha => exact .evicted i hr ha
  | cleared n d _ hg hq => exact .cleared n d hr hg hq
  | uncaptured => exact .keep

/-- What an event of a command does to the tables: it is RESETN, or a move. -/
theorem Event.tablesMove {c : Instr} {s t : State} (h : Event c s t) :
    (∃ p a m, c = .resetn p a m ∧ t = releaseReset p a m s) ∨ TablesMove c s t.tables := by
  have hwrite : ∀ who addr data, TablesMove c s (busWrite who addr data s).tables := fun who addr data => by
    rw [busWrite_tables]
    exact .keep
  cases h with
  | released p a m => exact .inl ⟨p, a, m, rfl, rfl⟩
  | time he => exact .inr he.tablesMove
  | @request _ _ k judge i w harm htakes =>
    right
    rw [State.complete_tables]
    rcases State.judgeInitiator_cases s k judge i w with ⟨o, hj⟩ | ⟨hg, hj⟩ <;> rw [hj]
    · exact .taken i htakes.running
    · exact .judged k judge i w htakes.running harm hg
  | @undefined _ i _ htakes =>
    right
    rw [State.complete_tables]
    exact .taken i htakes.running
  | undefinedManagement _ =>
    right
    rw [State.complete_tables]
    exact .keep
  | managed harm htakes =>
    right
    rw [State.complete_tables]
    exact (managementMove harm _ s).tablesMove htakes.running
  | control who m data => exact .inr (hwrite _ _ _)
  | window who addr data => exact .inr (hwrite _ _ _)
  | config who reg data => exact .inr (hwrite _ _ _)
  | refusalClear who data => exact .inr (hwrite _ _ _)
  | idle => exact .inr .keep
  | read who => exact .inr .keep
  | query who granule kind =>
    right
    rw [takeQuery_tables]
    exact .keep
  | answer code =>
    right
    rcases fenceAnswer_cases code s with ht | ⟨hr, i, hf, ht⟩ | ⟨-, i, timer, -, ht⟩ <;> rw [ht]
    · exact .keep
    · exact .done i hr hf
    · exact .keep
  | expiry =>
    right
    rcases expireFenceTimer_cases s with ht | ⟨hready, i, timer, hf, -, ht⟩ <;> rw [ht]
    · exact .keep
    · exact .failed i (fenceTickReady_iff.mp hready).1 (by rw [hf]; rfl)
  | fell => exact .inr .keep

theorem Event.tablesStep {c : Instr} {s t : State} (h : Event c s t) : TablesStep s t.tables := by
  rcases h.tablesMove with ⟨p, a, m, -, rfl⟩ | h
  · exact .reset (presentOf p)
  · exact h.step

/-! ### The initiator table (R70, R73) -/

/-- The initiator table keeps its ABSENT initiators and its generations. -/
structure SameRoster (inits inits' : Vector InitRecord 8) : Prop where
  absent : ∀ i : Initiator, inits'[i].state = .absent ↔ inits[i].state = .absent
  generation : ∀ i : Initiator, inits'[i].generation = inits[i].generation

theorem SameRoster.refl (inits : Vector InitRecord 8) : SameRoster inits inits :=
  ⟨fun _ => Iff.rfl, fun _ => rfl⟩

theorem SameRoster.trans {inits inits' inits'' : Vector InitRecord 8} (h : SameRoster inits inits')
    (h' : SameRoster inits' inits'') : SameRoster inits inits'' :=
  ⟨fun i => (h'.absent i).trans (h.absent i), fun i => (h'.generation i).trans (h.generation i)⟩

theorem inits_set_get (inits : Vector InitRecord 8) (i j : Initiator) (r : InitRecord) :
    (inits.set i r)[j] = if j = i then r else inits[j] := by
  simp only [Fin.getElem_fin, Vector.getElem_set, Fin.val_inj, eq_comm]

/-- One record is set, of the same generation, ABSENT exactly if it was. -/
theorem SameRoster.set {inits : Vector InitRecord 8} {i : Initiator} {r : InitRecord}
    (ha : r.state = .absent ↔ inits[i].state = .absent) (hg : r.generation = inits[i].generation) :
    SameRoster inits (inits.set i r) := by
  constructor <;> intro j <;> rw [inits_set_get] <;> split
  · rename_i h; subst h; exact ha
  · exact Iff.rfl
  · rename_i h; subst h; exact hg
  · rfl

theorem SameRoster.appendNotice (inits : Vector InitRecord 8) (i : Initiator) (n : Notice) :
    SameRoster inits (appendNotice inits i n) :=
  .set Iff.rfl rfl

theorem SameRoster.grantPass (tb : Tables) : SameRoster tb.inits (grantPass tb).inits :=
  ⟨fun i => by rw [Fin.getElem_fin, grantPass_state]; rfl, fun i => by rw [Fin.getElem_fin, grantPass_generation]; rfl⟩

theorem SameRoster.grantPassIf {inits : Vector InitRecord 8} {tb : Tables} (h : SameRoster inits tb.inits)
    (b : Bool) : SameRoster inits (grantPassIf b tb).inits :=
  grantPassIf_cases (P := fun tb' => SameRoster inits tb'.inits) h (h.trans (.grantPass tb))

theorem InitState.ne_absent_of_isActive {st : InitState} (h : st.isActive = true) : st ≠ .absent := by
  rintro rfl
  cases h

theorem SameRoster.afterTake (s : State) (i : Initiator) : SameRoster s.tables.inits (s.afterTake i).inits := by
  unfold State.afterTake
  split
  · rename_i h
    exact .set ⟨nofun, fun ha => absurd ha (InitState.ne_absent_of_isActive h.2)⟩ rfl
  · exact .refl _

/-- An initiator that is not ABSENT leaves for a state that is not ABSENT. -/
theorem SameRoster.leaveActive {tb : Tables} {i : Initiator} {st : InitState} (hst : st ≠ .absent)
    (ha : tb.inits[i].state ≠ .absent) : SameRoster tb.inits (leaveActive tb i st).inits :=
  .set (by simp only [hst, false_iff]; exact ha) rfl

theorem SameRoster.tickExpiry (tb : Tables) : SameRoster tb.inits (tickExpiry tb).inits :=
  List.foldlRecOn (motive := fun tb' : Tables => SameRoster tb.inits tb'.inits) _ expireWaiter (.refl _)
    fun tb' h v _ => h.trans (.appendNotice tb'.inits v.initiator _)

theorem SameRoster.tickLease (tb : Tables) (i : Initiator) : SameRoster tb.inits (tickLease tb i).inits := by
  unfold Machine.tickLease
  split
  · rename_i lease hs
    split
    · exact .leaveActive nofun (by rw [hs]; exact nofun)
    · exact .set (by rw [hs]; simp) rfl
  all_goals exact .refl _

theorem SameRoster.tickLeases (tb : Tables) : SameRoster tb.inits (tickLeases tb).inits :=
  List.foldlRecOn (motive := fun tb' : Tables => SameRoster tb.inits tb'.inits) _ Machine.tickLease (.refl _)
    fun tb' h i _ => h.trans (.tickLease tb' i)

theorem SameRoster.tickTables (tb : Tables) : SameRoster tb.inits (tickTables tb).inits :=
  ((SameRoster.tickExpiry tb).trans (.tickLeases _)).grantPassIf _

theorem SameRoster.teardownTables (tb : Tables) : SameRoster tb.inits (teardownTables tb).inits := by
  have hget : ∀ i : Initiator, (Machine.teardownTables tb).inits[i] = teardownInit tb.inits[i] := mapInits_get _ _
  constructor <;> intro i <;> rw [hget]
  · unfold teardownInit
    dsimp only
    split <;> simp_all
  · rfl

/-- The withdrawal of a waiter gives a notice alone to the initiator table. -/
theorem SameRoster.withdrawWaiter (tb : Tables) (i : Initiator) (tag : Tag) (t : Option Ticket) :
    SameRoster tb.inits (withdrawWaiter tb i tag t).inits := by
  cases t with
  | none => exact .refl _
  | some t => exact .appendNotice _ _ _

/-- Every initiator request past its gate, REGISTER apart, keeps the ABSENT initiators and the generations (R73). -/
theorem SameRoster.judged {c : Instr} {k : RequestKind} {judge : InitiatorJudge}
    (harm : (c, k, judge) ∈ initiatorArms) (hc : c ≠ .register) {d : DirState} {tb : Tables} {i : Initiator}
    (hg : gate d tb.inits[i].state k = none) (cfg : ConfigRegs) (w : RequestWords) :
    SameRoster tb.inits (judge cfg i w tb).1.inits := by
  rcases mem_initiatorArms.mp harm with ⟨rfl, -, -⟩ | ⟨-, rfl, rfl⟩ | ⟨-, -, rfl⟩ | ⟨-, -, rfl⟩ | ⟨-, -, rfl⟩
    | ⟨-, -, rfl⟩ | ⟨-, -, rfl⟩ | ⟨-, -, rfl⟩ | ⟨-, -, rfl⟩ | ⟨-, -, rfl⟩
  · exact absurd rfl hc
  · rw [judgeUnregister_tables]
    refine (SameRoster.leaveActive (st := .unregistered) nofun ?_).grantPassIf _
    obtain ⟨-, ha | ⟨-, hk⟩ | ⟨-, hk | hk⟩⟩ := gate_eq_none_iff.mp hg
    · exact InitState.ne_absent_of_isActive ha
    all_goals cases hk
  · exact .refl _
  · rcases judgeClaim_cases cfg i w tb with
      ht | ⟨mode, -, -, -, -, ⟨n, -, -, ht⟩ | ⟨-, -, -, ht⟩⟩ <;> rw [ht] <;> exact .refl _
  · rcases judgeUpgrade_cases cfg i w tb with
      ht | ⟨n, e, -, -, ⟨-, -, ht⟩ | ⟨-, -, -, ht⟩⟩ <;> rw [ht] <;> exact .refl _
  · rcases judgeDowngrade_cases cfg i w tb with ht | ⟨n, e, -, ht⟩ <;> rw [ht] <;> exact .refl _
  · rcases judgeRelease_cases cfg i w tb with
      ht | ⟨n, e, -, ht⟩ | ⟨n, e, -, ht⟩ | ⟨n, e, stage, -, ht⟩ <;> rw [ht]
    · exact .refl _
    · exact (SameRoster.withdrawWaiter { tb with claims := tb.claims.free n } i e.tag e.upgradeTicket).trans
        (.grantPass _)
    · exact .refl _
    · exact .refl _
  · rcases judgeCancel_cases cfg i w tb with ht | ⟨v, -, -, -, ht⟩ <;> rw [ht]
    · exact .refl _
    · exact SameRoster.grantPass { tb with
        claims := setUpgradeTicket tb.claims v none
        queue := tb.queue.filter fun x => !decide (x.ticket = v.ticket) }
  · rcases judgeTakeNotice_cases cfg i w tb with ht | ⟨n, rest, -, ht⟩ <;> rw [ht]
    · exact .refl _
    · exact .set Iff.rfl rfl
  · rw [judgeLookup_tables]
    exact .refl _

/-- The gate judges the state as it stood: the lease restart makes no initiator ACTIVE and none inactive. -/
theorem gate_afterTake {s : State} {i : Initiator} {k : RequestKind}
    (hg : gate s.dirState s.tables.inits[i].state k = none) :
    gate s.dirState (s.afterTake i).inits[i].state k = none := by
  unfold State.afterTake
  split
  · rename_i h
    rw [State.renewed_get, if_pos rfl]
    exact gate_of_active h.1 rfl
  · exact hg

/-- REGISTER apart, no command moves a generation, and none makes an initiator ABSENT or present (R71, R73). -/
theorem TablesMove.sameRoster {c : Instr} {s : State} {tb : Tables} (h : TablesMove c s tb) (hc : c ≠ .register) :
    SameRoster s.tables.inits tb.inits := by
  cases h with
  | keep => exact .refl _
  | taken i _ => exact .afterTake s i
  | judged k judge i w _ harm hg => exact (SameRoster.afterTake s i).trans (.judged harm hc (gate_afterTake hg) _ w)
  | evicted i _ ha => exact (SameRoster.leaveActive (st := .lapsed) nofun (InitState.ne_absent_of_isActive ha)).grantPassIf _
  | cleared n d _ _ _ => exact SameRoster.grantPass { s.tables with claims := s.tables.claims.free n }
  | tornDown _ => exact .teardownTables _
  | ticked _ => exact .tickTables _
  | issued i rest _ _ _ => exact .refl _
  | done i _ _ =>
    exact SameRoster.grantPassIf
      (tb := { s.tables with claims := s.tables.claims.alter fun _ c => finishDrain i c }) (.refl _) _
  | failed i _ _ =>
    exact SameRoster.grantPassIf
      (tb := { s.tables with claims := s.tables.claims.alter fun _ c => some (failDrain i c) }) (.refl _) _

/-! ### The ticket counter (R66) -/

@[simp] theorem grantPassIf_ticketCounter (b : Bool) (tb : Tables) :
    (grantPassIf b tb).ticketCounter = tb.ticketCounter := by
  cases b <;> simp

@[simp] theorem leaveActive_ticketCounter (tb : Tables) (i : Initiator) (st : InitState) :
    (leaveActive tb i st).ticketCounter = tb.ticketCounter := rfl

@[simp] theorem tickExpiry_ticketCounter (tb : Tables) : (tickExpiry tb).ticketCounter = tb.ticketCounter :=
  List.foldlRecOn (motive := fun tb' : Tables => tb'.ticketCounter = tb.ticketCounter) _ expireWaiter rfl
    fun _ h _ _ => h

@[simp] theorem tickLeases_ticketCounter (tb : Tables) : (tickLeases tb).ticketCounter = tb.ticketCounter := by
  refine List.foldlRecOn (motive := fun tb' : Tables => tb'.ticketCounter = tb.ticketCounter) _ tickLease rfl
    fun tb' h i _ => ?_
  rw [← h]
  unfold tickLease
  split
  · split <;> rfl
  all_goals rfl

@[simp] theorem tickTables_ticketCounter (tb : Tables) : (tickTables tb).ticketCounter = tb.ticketCounter := by
  simp [tickTables]

@[simp] theorem withdrawWaiter_ticketCounter (tb : Tables) (i : Initiator) (tag : Tag) (t : Option Ticket) :
    (withdrawWaiter tb i tag t).ticketCounter = tb.ticketCounter := by
  cases t <;> rfl

@[simp] theorem State.afterTake_ticketCounter (s : State) (i : Initiator) :
    (s.afterTake i).ticketCounter = s.tables.ticketCounter := by
  unfold State.afterTake
  split <;> rfl

@[simp] theorem State.afterTake_fenceQueue (s : State) (i : Initiator) :
    (s.afterTake i).fenceQueue = s.tables.fenceQueue := by
  unfold State.afterTake
  split <;> rfl

/-- CLAIM and UPGRADE apart, no initiator request moves the ticket counter. -/
theorem judged_ticketCounter {c : Instr} {k : RequestKind} {judge : InitiatorJudge}
    (harm : (c, k, judge) ∈ initiatorArms) (hclaim : c ≠ .claim) (hupgrade : c ≠ .upgrade) (tb : Tables)
    (cfg : ConfigRegs) (i : Initiator) (w : RequestWords) :
    (judge cfg i w tb).1.ticketCounter = tb.ticketCounter := by
  rcases mem_initiatorArms.mp harm with ⟨-, -, rfl⟩ | ⟨-, -, rfl⟩ | ⟨-, -, rfl⟩ | ⟨rfl, -, -⟩ | ⟨rfl, -, -⟩
    | ⟨-, -, rfl⟩ | ⟨-, -, rfl⟩ | ⟨-, -, rfl⟩ | ⟨-, -, rfl⟩ | ⟨-, -, rfl⟩
  · rcases judgeRegister_cases cfg i w tb with ⟨-, ht⟩ | ⟨-, ht⟩ <;> rw [ht]
  · simp [judgeUnregister_tables]
  · rfl
  · exact absurd rfl hclaim
  · exact absurd rfl hupgrade
  · rcases judgeDowngrade_cases cfg i w tb with ht | ⟨n, e, -, ht⟩ <;> rw [ht]
  · rcases judgeRelease_cases cfg i w tb with
      ht | ⟨n, e, -, ht⟩ | ⟨n, e, -, ht⟩ | ⟨n, e, stage, -, ht⟩ <;> rw [ht]
    simp [releaseShared]
  · rcases judgeCancel_cases cfg i w tb with ht | ⟨v, -, -, -, ht⟩ <;> rw [ht]
    simp [cancelTables]
  · rcases judgeTakeNotice_cases cfg i w tb with ht | ⟨n, rest, -, ht⟩ <;> rw [ht]
  · rw [judgeLookup_tables]

theorem TablesMove.ticketCounter {c : Instr} {s : State} {tb : Tables} (h : TablesMove c s tb)
    (hclaim : c ≠ .claim) (hupgrade : c ≠ .upgrade) : tb.ticketCounter = s.tables.ticketCounter := by
  cases h with
  | judged k judge i w _ harm _ =>
    rw [judged_ticketCounter harm hclaim hupgrade, State.afterTake_ticketCounter]
  | keep => rfl
  | taken i _ => simp
  | evicted i _ _ => simp [evictTables]
  | cleared n d _ _ _ => simp
  | tornDown _ => rfl
  | ticked _ => simp
  | issued i rest _ _ _ => rfl
  | done i _ _ => simp [doneOutcome]
  | failed i _ _ => simp [failedOutcome]

/-! ### The law of presence (R71) -/

/-- REGISTER gives a next generation to an initiator that is not ABSENT. -/
theorem judgeRegister_absent {d : DirState} {tb : Tables} {i : Initiator}
    (hg : gate d tb.inits[i].state .register = none) (cfg : ConfigRegs) (w : RequestWords) (j : Initiator) :
    ((judgeRegister cfg i w tb).1.inits[j].state = .absent ↔ tb.inits[j].state = .absent)
      ∧ (tb.inits[j].state = .absent →
        (judgeRegister cfg i w tb).1.inits[j].generation = tb.inits[j].generation) := by
  have hpresent : tb.inits[i].state ≠ .absent := by
    obtain ⟨-, ha | ⟨hs, -⟩ | ⟨hs, -⟩⟩ := gate_eq_none_iff.mp hg
    · exact InitState.ne_absent_of_isActive ha
    all_goals rw [hs]; exact nofun
  rcases judgeRegister_cases cfg i w tb with ⟨-, ht⟩ | ⟨-, ht⟩ <;> rw [ht]
  · exact ⟨Iff.rfl, fun _ => rfl⟩
  · rw [inits_set_get]
    split
    · rename_i h
      subst h
      exact ⟨⟨nofun, fun h => absurd h hpresent⟩, fun h => absurd h hpresent⟩
    · exact ⟨Iff.rfl, fun _ => rfl⟩

theorem TablesMove.absent {c : Instr} {s : State} {tb : Tables} (h : TablesMove c s tb) (i : Initiator) :
    (tb.inits[i].state = .absent ↔ s.tables.inits[i].state = .absent)
      ∧ (s.tables.inits[i].state = .absent → tb.inits[i].generation = s.tables.inits[i].generation) := by
  have hsame : SameRoster s.tables.inits tb.inits → (tb.inits[i].state = .absent ↔ s.tables.inits[i].state = .absent)
      ∧ (s.tables.inits[i].state = .absent → tb.inits[i].generation = s.tables.inits[i].generation) :=
    fun hs => ⟨hs.absent i, fun _ => hs.generation i⟩
  by_cases hc : c = .register
  · rcases h.judged_or with ⟨k, judge, j, w, harm, hg, rfl⟩ | hany
    · subst hc
      obtain ⟨rfl, rfl⟩ : k = .register ∧ judge = judgeRegister := by simpa [initiatorArms] using harm
      have htake := SameRoster.afterTake s j
      obtain ⟨habs, hgen⟩ := judgeRegister_absent (gate_afterTake hg) s.config w i
      exact ⟨habs.trans (htake.absent i), fun ha =>
        (hgen ((htake.absent i).mpr ha)).trans (htake.generation i)⟩
    · exact hsame ((hany .renew).sameRoster nofun)
  · exact hsame (h.sameRoster hc)

end Sys2Proof.Machine

/-! PROOF. What every command leaves alone (the queue of commands, the straps, the configuration, the request words), and
the laws of the mailboxes' flags, of presence, of the managers and of the counts of time. -/

namespace Sys2Proof.Machine

/-! ### What the commands leave alone -/

theorem ManagementMove.keeps {s v : State} {k : RequestKind} (h : ManagementMove s k v) :
    v.pending = s.pending ∧ v.straps = s.straps ∧ v.config = s.config ∧ v.countdown = s.countdown
      ∧ v.fenceTick = s.fenceTick := by
  cases h <;> exact ⟨rfl, rfl, rfl, rfl, rfl⟩

theorem WriteMove.keeps {s v : State} {who : Initiator} {data : Word} {r : Region}
    (h : WriteMove s who data r v) : v.pending = s.pending ∧ v.straps = s.straps := by
  cases h <;> exact ⟨rfl, rfl⟩

theorem busWrite_keeps_straps (who : Initiator) (addr : BitVec 8) (data : Word) (s : State) :
    (busWrite who addr data s).pending = s.pending ∧ (busWrite who addr data s).straps = s.straps :=
  busWrite_keeps (P := fun v => v.pending = s.pending ∧ v.straps = s.straps) (fun _ _ h => h) ⟨rfl, rfl⟩
    fun _ hm => hm.keeps

/-- No command touches the queue of commands. -/
theorem Event.pending {c : Instr} {s t : State} (h : Event c s t) : t.pending = s.pending := by
  cases h with
  | idle => rfl
  | request _ _ => rw [State.complete_pending]
  | undefined _ => rw [State.complete_pending]
  | undefinedManagement _ => rw [State.complete_pending]
  | managed harm _ => rw [State.complete_pending, (managementMove harm _ s).keeps.1]
  | control _ _ _ => exact (busWrite_keeps_straps _ _ _ _).1
  | window _ _ _ => exact (busWrite_keeps_straps _ _ _ _).1
  | config _ _ _ => exact (busWrite_keeps_straps _ _ _ _).1
  | refusalClear _ _ => exact (busWrite_keeps_straps _ _ _ _).1
  | read _ => rfl
  | query who granule kind =>
    obtain ⟨_, _, _, hq⟩ := takeQuery_eq who granule kind s
    rw [hq]
  | answer code => rcases fenceAnswer_cases code s with ht | ⟨-, _, -, ht⟩ | ⟨-, _, _, -, ht⟩ <;> rw [ht]
  | expiry => rcases expireFenceTimer_cases s with ht | ⟨-, _, _, -, -, ht⟩ <;> rw [ht]; rfl
  | time he => exact (TimeEvents.keeps (.single he)).2.2.2.2.2.2.2
  | released _ _ _ => rfl
  | fell => rfl

/-- Only the release of RESETn latches straps (R178). -/
theorem Event.straps {c : Instr} {s t : State} (h : Event c s t) :
    (∃ p a m, c = .resetn p a m ∧ t = releaseReset p a m s) ∨ t.straps = s.straps := by
  refine or_iff_not_imp_left.mpr fun hrelease => ?_
  cases h with
  | idle => rfl
  | request _ _ => rw [State.complete_straps]
  | undefined _ => rw [State.complete_straps]
  | undefinedManagement _ => rw [State.complete_straps]
  | managed harm _ => rw [State.complete_straps, (managementMove harm _ s).keeps.2.1]
  | control _ _ _ => exact (busWrite_keeps_straps _ _ _ _).2
  | window _ _ _ => exact (busWrite_keeps_straps _ _ _ _).2
  | config _ _ _ => exact (busWrite_keeps_straps _ _ _ _).2
  | refusalClear _ _ => exact (busWrite_keeps_straps _ _ _ _).2
  | read _ => rfl
  | query who granule kind =>
    obtain ⟨_, _, _, hq⟩ := takeQuery_eq who granule kind s
    rw [hq]
  | answer code => rcases fenceAnswer_cases code s with ht | ⟨-, _, -, ht⟩ | ⟨-, _, _, -, ht⟩ <;> rw [ht]
  | expiry => rcases expireFenceTimer_cases s with ht | ⟨-, _, _, -, -, ht⟩ <;> rw [ht]; rfl
  | time he => exact (TimeEvents.keeps (.single he)).2.2.2.2.2.1
  | released p a m => exact absurd ⟨p, a, m, rfl, rfl⟩ hrelease
  | fell => rfl

/-- A write of word 0 of a mailbox, or of the config-refusal flag, changes no configuration register. -/
theorem WriteMove.config_eq {s v : State} {who : Initiator} {data : Word} {r : Region}
    (h : WriteMove s who data r v) (hr : ∀ word reg, r = .config word → configRegAt word ≠ some reg) :
    v.config = s.config := by
  cases h with
  | config word reg hreg _ _ => exact absurd hreg (hr word reg rfl)
  | _ => rfl

theorem busWrite_config_eq {who : Initiator} {addr : BitVec 8} {data : Word} {s : State}
    (hr : ∀ word reg, regionOf addr = .config word → configRegAt word ≠ some reg) :
    (busWrite who addr data s).config = s.config :=
  busWrite_keeps (P := fun v => v.config = s.config) (fun _ _ h => h) rfl fun _ hm => hm.config_eq hr

/-- Only writes of the window and of the configuration registers change the configuration (R173). -/
theorem Event.config_eq {c : Instr} {s t : State} (h : Event c s t) (hreset : ∀ p a m, c ≠ .resetn p a m)
    (hwindow : ∀ who addr data, c ≠ .windowWrite who addr data)
    (hconfig : ∀ who reg data, c ≠ .configWrite who reg data) : t.config = s.config := by
  cases h with
  | idle => rfl
  | request _ _ => rw [State.complete_config]
  | undefined _ => rw [State.complete_config]
  | undefinedManagement _ => rw [State.complete_config]
  | managed harm _ => rw [State.complete_config, (managementMove harm _ s).keeps.2.2.1]
  | control who m data =>
    refine busWrite_config_eq fun word reg hreg => ?_
    cases m <;> simp at hreg
  | window who addr data => exact absurd rfl (hwindow who addr data)
  | config who reg data => exact absurd rfl (hconfig who reg data)
  | refusalClear who data =>
    refine busWrite_config_eq fun word reg hreg => ?_
    rw [regionOf_refusalWord] at hreg
    cases hreg
    simp
  | read _ => rfl
  | query who granule kind =>
    obtain ⟨_, _, _, hq⟩ := takeQuery_eq who granule kind s
    rw [hq]
  | answer code => rcases fenceAnswer_cases code s with ht | ⟨-, _, -, ht⟩ | ⟨-, _, _, -, ht⟩ <;> rw [ht]
  | expiry => rcases expireFenceTimer_cases s with ht | ⟨-, _, _, -, -, ht⟩ <;> rw [ht]; rfl
  | time he => exact (TimeEvents.keeps (.single he)).2.2.2.2.1
  | released p a m => exact absurd rfl (hreset p a m)
  | fell => rfl

/-! ### Mailboxes -/

/-- A law of mailboxes that their operations keep. -/
structure MailboxLaw (P : Mailbox → Prop) : Prop where
  complete : ∀ mb r, mb.busy = true → P mb → P (mb.complete r)
  control : ∀ mb data, P mb → P (mb.writeControl data)
  word : ∀ mb word data, P mb → P (mb.writeWord word data)
  overrun : ∀ mb : Mailbox, P mb → P { mb with ovr := true }
  abandon : ∀ mb : Mailbox, P mb → P mb.abandon
  reset : P resetMailbox

/-- The mailboxes are two fields of the state. -/
theorem State.mailbox_congr {s t : State} (hi : t.mailboxes = s.mailboxes) (hm : t.mgmt = s.mgmt) (x : MailboxId) :
    t.mailbox x = s.mailbox x := by
  cases x with
  | management => exact hm
  | initiator i => exact congrArg (fun v : Vector Mailbox 8 => v[i]) hi

theorem State.of_mailbox_congr {P : Mailbox → Prop} {s t : State} {x : MailboxId} (h : P (s.mailbox x))
    (hi : t.mailboxes = s.mailboxes) (hm : t.mgmt = s.mgmt) : P (t.mailbox x) :=
  State.mailbox_congr hi hm x ▸ h

theorem State.mailbox_mgmt (s : State) (mb : Mailbox) (x : MailboxId) :
    State.mailbox { s with mgmt := mb } x = if x = .management then mb else s.mailbox x := by
  cases x <;> rfl

/-- The mailbox that a write names may change by the operation of the write; the others stay. -/
theorem MailboxLaw.written {P : Mailbox → Prop} (hP : MailboxLaw P) {s v : State} {who : Initiator} {data : Word}
    {r : Region} (hm : WriteMove s who data r v) (h : ∀ x, P (s.mailbox x)) (x : MailboxId) : P (v.mailbox x) := by
  have hset : ∀ (i : Initiator) (mb : Mailbox), (P s.mailboxes[i] → P mb) →
      P (State.mailbox { s with mailboxes := s.mailboxes.set i mb } x) := by
    intro i mb hmb
    rw [State.mailbox_set]
    split
    · exact hmb (h (.initiator i))
    · exact h x
  have hmgmt : ∀ mb : Mailbox, (P s.mgmt → P mb) → P (State.mailbox { s with mgmt := mb } x) := by
    intro mb hmb
    rw [State.mailbox_mgmt]
    split
    · exact hmb (h .management)
    · exact h x
  cases hm with
  | keep => exact h x
  | overrun _ => exact hmgmt _ (hP.overrun _)
  | managementControl =>
    exact State.of_mailbox_congr (s := { s with mgmt := s.mgmt.writeControl data }) (hmgmt _ (hP.control _ data))
      rfl rfl
  | managementWord word _ => exact hmgmt _ (hP.word _ word data)
  | config _ _ _ _ _ => exact State.of_mailbox_congr (h x) rfl rfl
  | refused _ _ => exact State.of_mailbox_congr (h x) rfl rfl
  | initiatorControl i =>
    exact State.of_mailbox_congr (s := { s with mailboxes := s.mailboxes.set i (s.mailboxes[i].writeControl data) })
      (hset i _ (hP.control _ data)) rfl rfl
  | initiatorWord i word _ => exact hset i _ (hP.word _ word data)

theorem MailboxLaw.completed {P : Mailbox → Prop} (hP : MailboxLaw P) {s v : State} {m : MailboxId} {r : Reply}
    {k : RequestKind} {w : RequestWords} (htakes : s.Takes m k w) (hv : ∀ x, v.mailbox x = s.mailbox x)
    (h : ∀ x, P (s.mailbox x)) (x : MailboxId) : P ((v.complete m r).mailbox x) := by
  rw [State.complete_mailbox, hv]
  split
  · rename_i hx
    exact hP.complete _ r (hx ▸ htakes.toOffers.busy) (h x)
  · exact h x

theorem TimeEvent.mailbox {s t : State} (h : TimeEvent s t) (x : MailboxId) : t.mailbox x = s.mailbox x := by
  obtain ⟨hi, hm, -⟩ := TimeEvents.keeps (.single h)
  exact State.mailbox_congr hi hm x

theorem busWrite_mailbox_cases {P : Mailbox → Prop} {who : Initiator} {addr : BitVec 8} {data : Word} {s : State}
    {x : MailboxId} (h : P (s.mailbox x))
    (hmove : ∀ v, WriteMove s who data (regionOf addr) v → P (v.mailbox x)) : P ((busWrite who addr data s).mailbox x) :=
  busWrite_keeps (P := fun v => P (v.mailbox x))
    (fun v b hv => by rwa [State.mailbox_congr (s := v) (t := { v with busOut := b }) rfl rfl]) h hmove

theorem takeQuery_mailbox (who : Initiator) (granule : Granule) (kind : AccessKind) (s : State) (x : MailboxId) :
    (takeQuery who granule kind s).mailbox x = s.mailbox x := by
  obtain ⟨_, _, _, hq⟩ := takeQuery_eq who granule kind s
  exact State.mailbox_congr (by rw [hq]) (by rw [hq]) x

theorem fenceAnswer_mailbox (code : BitVec 2) (s : State) (x : MailboxId) :
    (fenceAnswer code s).mailbox x = s.mailbox x := by
  rcases fenceAnswer_cases code s with ht | ⟨-, _, -, ht⟩ | ⟨-, _, _, -, ht⟩ <;> rw [ht]
  all_goals exact State.mailbox_congr rfl rfl x

theorem expireFenceTimer_mailbox (s : State) (x : MailboxId) : (expireFenceTimer s).mailbox x = s.mailbox x := by
  rcases expireFenceTimer_cases s with ht | ⟨-, _, _, -, -, ht⟩ <;> rw [ht]
  exact State.mailbox_congr rfl rfl x

/-- A law that the operations of a mailbox keep is kept of every mailbox by every event. -/
theorem MailboxLaw.event {P : Mailbox → Prop} (hP : MailboxLaw P) {c : Instr} {s t : State} (he : Event c s t)
    (h : ∀ x, P (s.mailbox x)) (x : MailboxId) : P (t.mailbox x) := by
  have hwrite : ∀ who addr data, P ((busWrite who addr data s).mailbox x) := fun who addr data =>
    busWrite_mailbox_cases (h x) fun _ hm => hP.written hm h x
  cases he with
  | idle => exact h x
  | request _ htakes => exact hP.completed htakes (by exact State.mailbox_congr rfl rfl) h x
  | undefined htakes => exact hP.completed htakes (by exact State.mailbox_congr rfl rfl) h x
  | undefinedManagement htakes => exact hP.completed htakes (fun _ => rfl) h x
  | managed harm htakes => exact hP.completed htakes (managementMove harm _ s).mailbox h x
  | control _ _ _ => exact hwrite _ _ _
  | window _ _ _ => exact hwrite _ _ _
  | config _ _ _ => exact hwrite _ _ _
  | refusalClear _ _ => exact hwrite _ _ _
  | read _ => exact State.of_mailbox_congr (h x) rfl rfl
  | query who granule kind => rw [takeQuery_mailbox]; exact h x
  | answer code => rw [fenceAnswer_mailbox]; exact h x
  | expiry => rw [expireFenceTimer_mailbox]; exact h x
  | time he => rw [he.mailbox]; exact h x
  | released p a m => rw [releaseReset_mailbox]; exact hP.reset
  | fell => rw [State.assertReset_mailbox]; exact hP.abandon _ (h x)

theorem writeControl_request (mb : Mailbox) (data : Word) : (mb.writeControl data).request = mb.request := by
  unfold Mailbox.writeControl
  dsimp only
  split
  · split <;> rfl
  · rfl

/-- A write of word 0 of a mailbox or of a configuration register changes no request word (R151). -/
theorem WriteMove.request {s v : State} {who : Initiator} {data : Word} {r : Region}
    (h : WriteMove s who data r v) (hr : (∃ word, r = .config word) ∨ ∃ i, r = .mailbox i 0 ∨ r = .management 0)
    (x : MailboxId) : (v.mailbox x).request = (s.mailbox x).request := by
  have hmgmt : ∀ mb : Mailbox, mb.request = s.mgmt.request →
      (State.mailbox { s with mgmt := mb } x).request = (s.mailbox x).request := by
    intro mb hmb
    rw [State.mailbox_mgmt]
    split
    · rename_i hx; rw [hmb, hx]; rfl
    · rfl
  cases h with
  | keep => rfl
  | overrun _ => exact hmgmt _ rfl
  | managementControl =>
    exact State.of_mailbox_congr (P := fun mb => mb.request = (s.mailbox x).request)
      (s := { s with mgmt := s.mgmt.writeControl data }) (hmgmt _ (writeControl_request _ _)) rfl rfl
  | managementWord word hw => simp [hw] at hr
  | config _ _ _ _ _ => exact congrArg Mailbox.request (State.mailbox_congr rfl rfl x)
  | refused _ _ => exact congrArg Mailbox.request (State.mailbox_congr rfl rfl x)
  | initiatorControl i =>
    refine State.of_mailbox_congr (P := fun mb => mb.request = (s.mailbox x).request)
      (s := { s with mailboxes := s.mailboxes.set i (s.mailboxes[i].writeControl data) }) ?_ rfl rfl
    rw [State.mailbox_set]
    split
    · rename_i hx; rw [writeControl_request, hx]; rfl
    · rfl
  | initiatorWord i word hw => simp [hw] at hr

theorem busWrite_request {who : Initiator} {addr : BitVec 8} {data : Word} {s : State}
    (hr : (∃ word, regionOf addr = .config word) ∨ ∃ i, regionOf addr = .mailbox i 0 ∨ regionOf addr = .management 0)
    (x : MailboxId) : ((busWrite who addr data s).mailbox x).request = (s.mailbox x).request :=
  busWrite_mailbox_cases (P := fun mb => mb.request = (s.mailbox x).request) rfl fun _ hm => hm.request hr x

theorem complete_request_words {s v : State} {m : MailboxId} {r : Reply} (hv : ∀ x, v.mailbox x = s.mailbox x)
    (x : MailboxId) : ((v.complete m r).mailbox x).request = (s.mailbox x).request := by
  rw [State.complete_mailbox, hv]
  split <;> rfl

/-- Only writes of the window change the request words (R151). -/
theorem Event.request_words {c : Instr} {s t : State} (h : Event c s t) (hreset : ∀ p a m, c ≠ .resetn p a m)
    (hwindow : ∀ who addr data, c ≠ .windowWrite who addr data) (x : MailboxId) :
    (t.mailbox x).request = (s.mailbox x).request := by
  cases h with
  | idle => rfl
  | request _ _ => exact complete_request_words (by exact State.mailbox_congr rfl rfl) x
  | undefined _ => exact complete_request_words (by exact State.mailbox_congr rfl rfl) x
  | undefinedManagement _ => exact complete_request_words (fun _ => rfl) x
  | managed harm _ => exact complete_request_words (managementMove harm _ s).mailbox x
  | control who m data =>
    refine busWrite_request (.inr ?_) x
    cases m with
    | management => exact ⟨0, .inr (by simp)⟩
    | initiator i => exact ⟨i, .inl (by simp)⟩
  | window who addr data => exact absurd rfl (hwindow who addr data)
  | config who reg data => exact busWrite_request (.inl ⟨_, regionOf_configWord reg⟩) x
  | refusalClear who data => exact busWrite_request (.inl ⟨_, regionOf_refusalWord⟩) x
  | read _ => exact congrArg Mailbox.request (State.mailbox_congr rfl rfl x)
  | query who granule kind => rw [takeQuery_mailbox]
  | answer code => rw [fenceAnswer_mailbox]
  | expiry => rw [expireFenceTimer_mailbox]
  | time he => rw [he.mailbox]
  | released p a m => exact absurd rfl (hreset p a m)
  | fell => rw [State.assertReset_mailbox]; rfl

/-- Settles O2: the events of time that come first leave the slow state alone, and so does each event of a command but
those the statement names. -/
theorem everyCommandAnswersAndFewMoveTheSlowState : Obligations.EveryCommandAnswersAndFewMoveTheSlowState := by
  intro c s
  obtain ⟨t, ht⟩ := exec_answers c s
  obtain ⟨u, hu, he⟩ := exec_event ht
  obtain ⟨-, -, -, -, hconfig, hstraps, -, hpending⟩ := hu.keeps
  refine ⟨t, ht, he.pending.trans hpending, fun hreset => ⟨?_, ?_, ?_, ?_, ?_⟩⟩
  · intro hc i
    have hgen : ∀ v, TimeEvents s v → SameRoster s.tables.inits v.tables.inits := fun v hv =>
      hv.preserve (P := fun v => SameRoster s.tables.inits v.tables.inits)
        (fun _ _ hx h => h.trans ((hx.tablesMove (c := .renew)).sameRoster nofun)) (.refl _)
    rcases he.tablesMove with ⟨p, a, m, hp, -⟩ | hm
    · exact absurd hp (hreset p a m)
    · exact ((hgen u hu).trans (hm.sameRoster hc)).generation i
  · intro hclaim hupgrade
    have hcounter : u.tables.ticketCounter = s.tables.ticketCounter :=
      hu.preserve (P := fun v => v.tables.ticketCounter = s.tables.ticketCounter)
        (fun _ _ hx h => ((hx.tablesMove (c := .renew)).ticketCounter nofun nofun).trans h) rfl
    rcases he.tablesMove with ⟨p, a, m, hp, -⟩ | hm
    · exact absurd hp (hreset p a m)
    · exact (hm.ticketCounter hclaim hupgrade).trans hcounter
  · intro hwindow m
    have hmailbox : u.mailbox m = s.mailbox m :=
      hu.preserve (P := fun v => v.mailbox m = s.mailbox m) (fun _ _ hx h => (hx.mailbox m).trans h) rfl
    rw [he.request_words hreset hwindow, hmailbox]
  · exact fun hwindow hcfg => (he.config_eq hreset hwindow hcfg).trans hconfig
  · rcases he.straps with ⟨p, a, m, hp, -⟩ | hs
    · exact absurd hp (hreset p a m)
    · exact hs.trans hstraps

/-! ### The flags (R158) -/

theorem Mailbox.flagLaw : MailboxLaw Mailbox.FlagLaw where
  complete mb r hb h := by
    obtain ⟨hdone, herror⟩ := h.1 hb
    refine ⟨nofun, ?_⟩
    simp [hdone, herror]
  control mb data h := by
    unfold Mailbox.writeControl
    dsimp only
    have hcleared : (mb.done && !data.getLsbD 2 && (mb.error && !data.getLsbD 3)) = false := by
      have := h.2
      revert this
      cases mb.done <;> cases mb.error <;> simp
    have hbusy : mb.busy = true → (mb.done && !data.getLsbD 2) = false ∧ (mb.error && !data.getLsbD 3) = false := by
      intro hb
      simp [h.1 hb]
    split
    · split
      · exact ⟨hbusy, hcleared⟩
      · exact ⟨fun _ => ⟨rfl, rfl⟩, rfl⟩
    · exact ⟨hbusy, hcleared⟩
  word mb word data h := by
    unfold Mailbox.writeWord
    split
    · exact h
    · split <;> exact h
  overrun mb h := h
  abandon mb h := ⟨nofun, h.2⟩
  reset := ⟨nofun, rfl⟩

theorem step_keeps_flagLaw {s t : State} (h : s.FlagLaw) (hstep : step s = .next t) : t.FlagLaw :=
  step_keeps (P := State.FlagLaw) (fun s rest h x => State.of_mailbox_congr (h x) rfl rfl)
    (fun _ _ he h x => by rw [he.mailbox]; exact h x) (fun _ _ _ he h x => Mailbox.flagLaw.event he h x) h hstep

/-! ### Presence and managers (R71, R173) -/

theorem State.PresentLaw.moved {c : Instr} {s t : State} (h : s.PresentLaw) (hm : TablesMove c s t.tables)
    (hstraps : t.straps = s.straps) : t.PresentLaw := by
  intro i
  obtain ⟨habs, hgen⟩ := hm.absent i
  obtain ⟨hpresent, hzero⟩ := h i
  refine ⟨by rw [habs, hpresent, hstraps], fun ha => ?_⟩
  rw [hgen (habs.mp ha)]
  exact hzero (habs.mp ha)

theorem resetTables_presentLaw (s : State) (p : BitVec 2) (a m : Bool) : (releaseReset p a m s).PresentLaw := by
  intro i
  have hget : (releaseReset p a m s).tables.inits[i] = resetInit (presentOf p) i.val := resetTables_inits _ i
  rw [hget]
  have hcount : (releaseReset p a m s).straps.present = presentOf p := rfl
  rw [hcount, resetInit]
  refine ⟨?_, fun _ => rfl⟩
  dsimp only
  split
  · simpa
  · simp; omega

theorem step_keeps_presentLaw {s t : State} (h : s.PresentLaw) (hstep : step s = .next t) : t.PresentLaw := by
  refine step_keeps (P := State.PresentLaw) (fun _ _ h => h) (fun _ _ he h => ?_) (fun c s t he h => ?_) h hstep
  · exact h.moved (he.tablesMove (c := .renew)) (TimeEvents.keeps (.single he)).2.2.2.2.2.1
  · rcases he.straps with ⟨p, a, m, -, rfl⟩ | hs
    · exact resetTables_presentLaw s p a m
    · rcases he.tablesMove with ⟨p, a, m, -, rfl⟩ | hm
      · exact resetTables_presentLaw s p a m
      · exact h.moved hm hs

end Sys2Proof.Machine

/-! PROOF. What the directory engine does to its tables, cut into small edits: each request, each stage of a tick and each
grant of a pass is a row of such edits (`TablesStep.edits`), so a law of the tables that every edit keeps is kept by every
step.  A pass and a stage of a tick run over many waiters and initiators; here their loops are gone. -/

namespace Sys2Proof.Machine

/-! ### The edits -/

/-- One edit of the tables by the directory engine, under the configuration `cfg`. -/
inductive EngineEdit (cfg : ConfigRegs) (tb : Tables) : Tables → Prop where
  /-- A lease is restarted, or lowered by a tick that does not end it (R21, R80). -/
  | lease (i : Initiator) (old new : Nat) (hs : tb.inits[i].state = .active old)
      (hnew : new = cfg.leaseLength ∨ (1 < old ∧ new = old - 1)) :
      EngineEdit cfg tb { tb with inits := tb.inits.set i { tb.inits[i] with state := .active new } }
  /-- An initiator that is not ACTIVE registers (R74). -/
  | registered (i : Initiator) (g : BitVec 8) (ha : tb.inits[i].state.isActive = false) :
      EngineEdit cfg tb { tb with inits := tb.inits.set i { tb.inits[i] with
        state := .active cfg.leaseLength
        generation := g } }
  /-- A CLAIM is granted at once (R32). -/
  | claimed (i : Initiator) (mode : Mode) (w : RequestWords) (n : ClaimNo)
      (ha : tb.inits[i].state.isActive = true) (hlimit : claimCount tb i < cfg.claimLimit)
      (hn : tb.claims.lowestFree = some n) :
      EngineEdit cfg tb { tb with claims := tb.claims.put n ⟨.held, i, mode, claimSpan w, tagOperand w, none⟩ }
  /-- An UPGRADE is granted at once (R36). -/
  | upgraded (n : ClaimNo) (c : Claim) (hg : tb.claims.get n = some c) (hc : c.heldShared = true)
      (ht : c.upgradeTicket = none) :
      EngineEdit cfg tb { tb with claims := tb.claims.put n { c with mode := .exclusive, upgradeTicket := none } }
  /-- A request is queued under the ticket that the counter issues (R34, R37, R55). -/
  | queued (v : Waiter) (limit : Nat) (ha : tb.inits[v.initiator].state.isActive = true)
      (hlimit : v.isClaim = true → claimCount tb v.initiator < cfg.claimLimit)
      (hticket : v.ticket = issuedTicket tb) (hname : v.MayName tb.claims)
      (hremaining : v.remaining = startRemaining limit) (h0 : limit ≠ 0) (h16 : limit < 65536)
      (hplace : placementRefusal tb v = none) : EngineEdit cfg tb (queueWaiter tb v)
  /-- A HELD EXCLUSIVE record begins to drain, and its holder joins the fence queue (R10, R12, R41). -/
  | drained (n : ClaimNo) (c : Claim) (phase : Phase) (mode : Mode) (hg : tb.claims.get n = some c)
      (hheld : c.phase = .held) (hmode : c.mode = .exclusive)
      (hphase : phase = .drainingDown .pending ∨ phase = .drainingOut .pending) :
      EngineEdit cfg tb { tb with
        claims := tb.claims.put n { c with phase := phase, mode := mode }
        fenceQueue := appendFence tb.fenceQueue c.holder }
  /-- A DRAINING_DOWN record is released (R11). -/
  | redrained (n : ClaimNo) (c : Claim) (stage : Stage) (hg : tb.claims.get n = some c)
      (hphase : c.phase = .drainingDown stage) :
      EngineEdit cfg tb { tb with claims := tb.claims.put n { c with phase := .drainingOut stage } }
  /-- A HELD SHARED record is released, and its UPGRADE waiter withdrawn (R40). -/
  | released (n : ClaimNo) (c : Claim) (hg : tb.claims.get n = some c) (hc : c.heldShared = true)
      (ha : tb.inits[c.holder].state.isActive = true) :
      EngineEdit cfg tb (withdrawWaiter { tb with claims := tb.claims.free n } c.holder c.tag c.upgradeTicket)
  /-- A QUARANTINED record is cleared (R114). -/
  | cleared (n : ClaimNo) (c : Claim) (hg : tb.claims.get n = some c) (hq : c.phase = .quarantined) :
      EngineEdit cfg tb { tb with claims := tb.claims.free n }
  /-- A waiter is cancelled (R59). -/
  | cancelled (v : Waiter) (hv : v ∈ tb.queue) :
      EngineEdit cfg tb { tb with
        claims := setUpgradeTicket tb.claims v none
        queue := tb.queue.filter fun x => !decide (x.ticket = v.ticket) }
  /-- The oldest notice is taken (R69). -/
  | noticeTaken (i : Initiator) (n : Notice) (rest : List Notice) (hn : tb.inits[i].notices = n :: rest) :
      EngineEdit cfg tb { tb with inits := tb.inits.set i { tb.inits[i] with notices := rest } }
  /-- An initiator leaves ACTIVE (R77, R81). -/
  | left (i : Initiator) (st : InitState) (ha : tb.inits[i].state.isActive = true) (hst : st.isActive = false) :
      EngineEdit cfg tb (leaveActive tb i st)
  /-- Stage 1 of a tick (R57). -/
  | expired : EngineEdit cfg tb (tickExpiry tb)
  /-- A pass grants one waiter (R52). -/
  | granted (before after : List Waiter) (w : Waiter) (n : ClaimNo) (c : Claim)
      (hq : tb.queue = before ++ w :: after) (hg : grantedRecord tb.claims w = some (n, c)) :
      EngineEdit cfg tb { grantWaiter tb w n c with queue := before ++ after }

/-- Any number of edits. -/
abbrev EngineEdits (cfg : ConfigRegs) : Tables → Tables → Prop :=
  Relation.ReflTransGen (EngineEdit cfg)

/-- A property that each edit keeps is kept by any number of them. -/
theorem EngineEdits.preserve {cfg : ConfigRegs} {P : Tables → Prop} (hP : ∀ tb tb', EngineEdit cfg tb tb' → P tb → P tb')
    {tb tb' : Tables} (h : EngineEdits cfg tb tb') (hs : P tb) : P tb' := by
  induction h with
  | refl => exact hs
  | tail _ he ih => exact hP _ _ he ih

/-! ### Each event of the engine is a row of edits -/

theorem grantPass_edits (cfg : ConfigRegs) (tb : Tables) : EngineEdits cfg tb (grantPass tb) :=
  grantPass_keeps (P := EngineEdits cfg tb)
    (fun _ before w after n c hq h hj => h.tail (.granted before after w n c hq (judgeWaiter_eq_some.mp hj).2)) tb .refl

theorem grantPassIf_edits {cfg : ConfigRegs} {tb tb' : Tables} (h : EngineEdits cfg tb tb') (b : Bool) :
    EngineEdits cfg tb (grantPassIf b tb') :=
  grantPassIf_cases h (h.trans (grantPass_edits cfg tb'))

theorem InitState.isActive_iff {st : InitState} : st.isActive = true ↔ ∃ l, st = .active l := by
  cases st <;> simp [InitState.isActive]

theorem tickLease_edits (cfg : ConfigRegs) (tb : Tables) (i : Initiator) : EngineEdits cfg tb (tickLease tb i) := by
  unfold tickLease
  split
  · rename_i lease hs
    split
    · exact .single (.left i .lapsed (by rw [hs]; rfl) rfl)
    · exact .single (.lease i lease _ hs (.inr ⟨by omega, rfl⟩))
  all_goals exact .refl

theorem tickLeases_edits (cfg : ConfigRegs) (tb : Tables) : EngineEdits cfg tb (tickLeases tb) :=
  List.foldlRecOn (motive := EngineEdits cfg tb) _ tickLease .refl fun _ h i _ => h.trans (tickLease_edits cfg _ i)

theorem tickTables_edits (cfg : ConfigRegs) (tb : Tables) : EngineEdits cfg tb (tickTables tb) :=
  grantPassIf_edits (.trans (.single .expired) (tickLeases_edits cfg _)) _

theorem evictTables_edits {cfg : ConfigRegs} {tb : Tables} {i : Initiator} (ha : tb.inits[i].state.isActive = true) :
    EngineEdits cfg tb (evictTables tb i) :=
  grantPassIf_edits (.single (.left i .lapsed ha rfl)) _

theorem afterTake_edits (s : State) (i : Initiator) : EngineEdits s.config s.tables (s.afterTake i) := by
  unfold State.afterTake
  split
  · rename_i h
    obtain ⟨l, hl⟩ := InitState.isActive_iff.mp h.2
    exact .single (.lease i l _ hl (.inl rfl))
  · exact .refl

section Requests

variable {tb : Tables} (cfg : ConfigRegs) (i : Initiator) (w : RequestWords)

theorem waitLimit_lt (w : RequestWords) : waitLimit w < 65536 := bitField_lt 16 16 w.w4

theorem judgeClaim_edits (ha : tb.inits[i].state.isActive = true) : EngineEdits cfg tb (judgeClaim cfg i w tb).1 := by
  rcases judgeClaim_cases cfg i w tb with
    ht | ⟨mode, -, -, -, hlimit, ⟨n, -, hn, ht⟩ | ⟨-, h0, hplace, ht⟩⟩ <;> rw [ht]
  · exact .single (.claimed i mode w n ha hlimit hn)
  · exact .single (.queued (claimWaiter tb i mode w) (waitLimit w) ha (fun _ => hlimit) rfl nofun rfl h0
      (waitLimit_lt w) hplace)

theorem judgeUpgrade_edits (ha : tb.inits[i].state.isActive = true) :
    EngineEdits cfg tb (judgeUpgrade cfg i w tb).1 := by
  rcases judgeUpgrade_cases cfg i w tb with ht | ⟨n, c, hc, hnone, ⟨-, -, ht⟩ | ⟨-, h0, hplace, ht⟩⟩ <;> rw [ht]
  · exact .single (.upgraded n c hc.record hc.heldShared hnone)
  · refine .single (.queued (upgradeWaiter tb i n c w) (waitLimit w) ha nofun rfl ?_ rfl h0 (waitLimit_lt w) hplace)
    intro m hm
    obtain rfl : n = m := Option.some.inj hm
    exact ⟨c, hc.record, hc.heldShared, hc.holder, rfl, rfl, hnone⟩

theorem judgeDowngrade_edits : EngineEdits cfg tb (judgeDowngrade cfg i w tb).1 := by
  rcases judgeDowngrade_cases cfg i w tb with ht | ⟨n, c, ⟨-, hg, rfl, hphase, hmode⟩, ht⟩ <;> rw [ht]
  exact .single (.drained n c (.drainingDown .pending) .shared hg hphase hmode (.inl rfl))

theorem judgeRelease_edits (ha : tb.inits[i].state.isActive = true) :
    EngineEdits cfg tb (judgeRelease cfg i w tb).1 := by
  rcases judgeRelease_cases cfg i w tb with ht | ⟨n, c, hc, ht⟩ | ⟨n, c, ⟨-, hg, rfl, hphase, hmode⟩, ht⟩
    | ⟨n, c, stage, hc, ht⟩ <;> rw [ht]
  · have hheld := hc.heldShared
    obtain ⟨-, hg, rfl, -, -⟩ := hc
    exact .trans (.single (.released n c hg hheld ha)) (grantPass_edits cfg _)
  · exact .single (.drained n c (.drainingOut .pending) c.mode hg hphase hmode (.inr rfl))
  · exact .single (.redrained n c stage hc.record hc.phase)

theorem judgeCancel_edits : EngineEdits cfg tb (judgeCancel cfg i w tb).1 := by
  rcases judgeCancel_cases cfg i w tb with ht | ⟨v, hv, -, -, ht⟩ <;> rw [ht]
  exact .trans (.single (.cancelled v hv)) (grantPass_edits cfg _)

theorem judgeTakeNotice_edits : EngineEdits cfg tb (judgeTakeNotice cfg i w tb).1 := by
  rcases judgeTakeNotice_cases cfg i w tb with ht | ⟨n, rest, hn, ht⟩ <;> rw [ht]
  exact .single (.noticeTaken i n rest hn)

theorem judgeRegister_edits : EngineEdits cfg tb (judgeRegister cfg i w tb).1 := by
  rcases judgeRegister_cases cfg i w tb with ⟨-, ht⟩ | ⟨ha, ht⟩ <;> rw [ht]
  exact .single (.registered i _ ha)

end Requests

/-- Past the gate the requester is ACTIVE, for every request but REGISTER and LOOKUP (R20). -/
theorem isActive_of_gate {d : DirState} {st : InitState} {k : RequestKind} (h : gate d st k = none)
    (hr : k ≠ .register) (hl : k ≠ .lookup) : st.isActive = true := by
  obtain ⟨-, ha | ⟨-, hk⟩ | ⟨-, hk | hk⟩⟩ := gate_eq_none_iff.mp h
  · exact ha
  · exact absurd hk hr
  · exact absurd hk hr
  · exact absurd hk hl

/-- A request past its gate is a row of edits. -/
theorem judged_edits {k : RequestKind} {judge : InitiatorJudge} (hm : (k, judge) ∈ initiatorJudges) {d : DirState}
    {tb : Tables} {i : Initiator} (hg : gate d tb.inits[i].state k = none) (cfg : ConfigRegs) (w : RequestWords) :
    EngineEdits cfg tb (judge cfg i w tb).1 := by
  simp only [initiatorJudges, List.mem_cons, List.not_mem_nil, or_false, Prod.mk.injEq] at hm
  rcases hm with ⟨-, rfl⟩ | ⟨rfl, rfl⟩ | ⟨-, rfl⟩ | ⟨rfl, rfl⟩ | ⟨rfl, rfl⟩ | ⟨-, rfl⟩ | ⟨rfl, rfl⟩ | ⟨-, rfl⟩
    | ⟨-, rfl⟩ | ⟨-, rfl⟩
  · exact judgeRegister_edits cfg i w
  · exact grantPassIf_edits (.single (.left i .unregistered (isActive_of_gate hg nofun nofun) rfl)) _
  · exact .refl
  · exact judgeClaim_edits cfg i w (isActive_of_gate hg nofun nofun)
  · exact judgeUpgrade_edits cfg i w (isActive_of_gate hg nofun nofun)
  · exact judgeDowngrade_edits cfg i w
  · exact judgeRelease_edits cfg i w (isActive_of_gate hg nofun nofun)
  · exact judgeCancel_edits cfg i w
  · exact judgeTakeNotice_edits cfg i w
  · rw [judgeLookup_tables]

/-! ### Every event -/

/-- What the fence unit does to the records of initiator `i` (R13 to R15). -/
inductive FenceEdit (tb : Tables) (i : Initiator) : Tables → Prop where
  | issued (rest : List Initiator) (hq : tb.fenceQueue = i :: rest) : FenceEdit tb i (issueTables tb i rest)
  | done : FenceEdit tb i { tb with claims := tb.claims.alter fun _ c => finishDrain i c }
  | failed : FenceEdit tb i { tb with claims := tb.claims.alter fun _ c => some (failDrain i c) }

/-- What one event makes of the tables: a row of edits of the engine, an edit of the fence unit with a row after it, or
tables as OFF has them. -/
theorem TablesStep.edits {s : State} {tb : Tables} (h : TablesStep s tb) :
    EngineEdits s.config s.tables tb ∨ (∃ i tb', FenceEdit s.tables i tb' ∧ EngineEdits s.config tb' tb)
      ∨ tb = teardownTables s.tables ∨ ∃ present, tb = resetTables present := by
  cases h with
  | keep => exact .inl .refl
  | taken i _ => exact .inl (afterTake_edits s i)
  | judged k judge i w _ hm hg =>
    exact .inl ((afterTake_edits s i).trans (judged_edits hm (gate_afterTake hg) s.config w))
  | evicted i _ ha => exact .inl (evictTables_edits ha)
  | cleared n c _ hg hq => exact .inl (.trans (.single (.cleared n c hg hq)) (grantPass_edits _ _))
  | tornDown _ => exact .inr (.inr (.inl rfl))
  | ticked _ => exact .inl (tickTables_edits _ _)
  | issued i rest _ _ hq => exact .inr (.inl ⟨i, _, .issued rest hq, .refl⟩)
  | done i _ _ => exact .inr (.inl ⟨i, _, .done, grantPassIf_edits .refl _⟩)
  | failed i _ _ => exact .inr (.inl ⟨i, _, .failed, grantPassIf_edits .refl _⟩)
  | reset present => exact .inr (.inr (.inr ⟨present, rfl⟩))

/-- A law of the tables that every edit keeps, and that tables as OFF has them fulfil, is kept by every event. -/
theorem TablesStep.preserve {s : State} {tb : Tables} {P : Tables → Prop} (hs : TablesStep s tb)
    (hengine : ∀ tb tb', EngineEdit s.config tb tb' → P tb → P tb')
    (hfence : ∀ tb i tb', FenceEdit tb i tb' → P tb → P tb')
    (hdown : P s.tables → P (teardownTables s.tables)) (hreset : ∀ present, P (resetTables present))
    (h : P s.tables) : P tb := by
  rcases hs.edits with he | ⟨i, tb', hf, he⟩ | rfl | ⟨present, rfl⟩
  · exact he.preserve hengine h
  · exact he.preserve hengine (hfence _ i _ hf h)
  · exact hdown h
  · exact hreset present

end Sys2Proof.Machine

/-! PROOF. The laws of the managers and of the counts of time (R56, R79, R96, R173, R176), and with them the laws of
states, flags and counts together. -/

namespace Sys2Proof.Machine

/-! ### Expiry, said once (R57) -/

theorem expireWaiters_queue (expired : List Waiter) (tb : Tables) : (expired.foldl expireWaiter tb).queue = tb.queue :=
  List.foldlRecOn (motive := fun tb' : Tables => tb'.queue = tb.queue) expired expireWaiter rfl fun _ h _ _ => h

theorem expireWaiters_fenceQueue (expired : List Waiter) (tb : Tables) :
    (expired.foldl expireWaiter tb).fenceQueue = tb.fenceQueue :=
  List.foldlRecOn (motive := fun tb' : Tables => tb'.fenceQueue = tb.fenceQueue) expired expireWaiter rfl fun _ h _ _ => h

/-- The notice of a waiter that expires. -/
def Waiter.expiredNotice (w : Waiter) : Notice :=
  ⟨w.ticket, .expired, w.tag⟩

/-- Each waiter that expires appends its notice to the list of its initiator, in queue order. -/
theorem expireWaiters_get (expired : List Waiter) (tb : Tables) (i : Initiator) :
    (expired.foldl expireWaiter tb).inits[i] = { tb.inits[i] with
      notices := tb.inits[i].notices
        ++ (expired.filter fun w => decide (w.initiator = i)).map Waiter.expiredNotice } := by
  induction expired generalizing tb with
  | nil => simp
  | cons w rest ih =>
    rw [List.foldl_cons, ih, expireWaiter, appendNotice_get]
    by_cases h : i = w.initiator
    · subst h
      simp [Waiter.expiredNotice]
    · simp [h, Ne.symm h]

theorem tickExpiry_queue (tb : Tables) :
    (tickExpiry tb).queue = (tb.queue.filter fun w => !w.expires).map Waiter.lower :=
  expireWaiters_queue _ _

@[simp] theorem tickExpiry_fenceQueue (tb : Tables) : (tickExpiry tb).fenceQueue = tb.fenceQueue :=
  expireWaiters_fenceQueue _ _

theorem tickExpiry_get (tb : Tables) (i : Initiator) :
    (tickExpiry tb).inits[i] = { tb.inits[i] with
      notices := tb.inits[i].notices
        ++ ((tb.queue.filter Waiter.expires).filter fun w => decide (w.initiator = i)).map Waiter.expiredNotice } :=
  expireWaiters_get _ _ i

/-! ### Leases and waits (R56, R79) -/

/-- Every lease remaining stands from 1 to 65,535, every wait remaining from 1 to 65,534. -/
def Tables.TimeLaw (tb : Tables) : Prop :=
  (∀ (i : Initiator) (l : Nat), tb.inits[i].state = .active l → 1 ≤ l ∧ l ≤ 65535)
    ∧ ∀ w ∈ tb.queue, ∀ r, w.remaining = some r → 1 ≤ r ∧ r ≤ 65534

/-- The laws of leases speak of the states of initiators alone. -/
theorem Tables.TimeLaw.of_states {tb tb' : Tables} (h : tb.TimeLaw)
    (hs : ∀ i : Initiator, tb'.inits[i].state = tb.inits[i].state) (hq : tb'.queue ⊆ tb.queue) : tb'.TimeLaw :=
  ⟨fun i l hl => h.1 i l (hs i ▸ hl), fun w hw => h.2 w (hq hw)⟩

/-- The state of one initiator is set, to one in range if it is ACTIVE. -/
theorem Tables.TimeLaw.set {tb : Tables} (h : tb.TimeLaw) {i : Initiator} {r : InitRecord}
    (hr : ∀ l, r.state = .active l → 1 ≤ l ∧ l ≤ 65535) {tb' : Tables} (hi : tb'.inits = tb.inits.set i r)
    (hq : tb'.queue ⊆ tb.queue) : tb'.TimeLaw := by
  refine ⟨fun j l hl => ?_, fun w hw => h.2 w (hq hw)⟩
  rw [hi, inits_set_get] at hl
  split at hl
  · exact hr l hl
  · exact h.1 j l hl

theorem startRemaining_range {limit r : Nat} (h0 : limit ≠ 0) (h16 : limit < 65536)
    (hr : startRemaining limit = some r) : 1 ≤ r ∧ r ≤ 65534 := by
  unfold startRemaining at hr
  split at hr
  · cases hr
  · cases hr
    omega

theorem Tables.TimeLaw.tickExpiry {tb : Tables} (h : tb.TimeLaw) : (tickExpiry tb).TimeLaw := by
  constructor
  · intro i l hl
    rw [tickExpiry_get] at hl
    exact h.1 i l hl
  · intro w hw r hr
    rw [tickExpiry_queue, List.mem_map] at hw
    obtain ⟨v, hv, rfl⟩ := hw
    obtain ⟨hv, hexp⟩ := List.mem_filter.mp hv
    obtain ⟨k, hk, rfl⟩ := Option.map_eq_some_iff.mp hr
    have hrange := h.2 v hv k hk
    have : ¬k ≤ 1 := by simpa [Waiter.expires, hk] using hexp
    omega

theorem Tables.TimeLaw.edit {cfg : ConfigRegs} {tb tb' : Tables} (hcfg : 1 ≤ cfg.leaseLength ∧ cfg.leaseLength ≤ 65535)
    (he : EngineEdit cfg tb tb') (h : tb.TimeLaw) : tb'.TimeLaw := by
  cases he with
  | lease i old new hs hnew =>
    refine h.set (fun l hl => ?_) rfl (List.Subset.refl _)
    cases hl
    have hold := h.1 i old hs
    rcases hnew with rfl | ⟨hlt, rfl⟩
    · exact hcfg
    · omega
  | registered i g _ =>
    refine h.set (fun l hl => ?_) rfl (List.Subset.refl _)
    cases hl
    exact hcfg
  | claimed => exact h
  | upgraded => exact h
  | queued v limit _ _ _ _ hremaining h0 h16 _ =>
    refine ⟨h.1, fun w hw r hr => ?_⟩
    rcases List.mem_cons.mp ((placeWaiter_perm _ v).mem_iff.mp hw) with rfl | hw
    · exact startRemaining_range h0 h16 (hremaining ▸ hr)
    · exact h.2 w hw r hr
  | drained => exact h
  | redrained => exact h
  | released n c _ _ _ =>
    cases c.upgradeTicket with
    | none => exact h
    | some t => exact h.of_states (fun i => by simp [withdrawWaiter]) (List.filter_sublist.subset)
  | cleared => exact h
  | cancelled v _ => exact h.of_states (fun _ => rfl) List.filter_sublist.subset
  | noticeTaken i n rest _ =>
    exact h.set (r := { tb.inits[i] with notices := rest }) (fun l hl => h.1 i l hl) rfl
      (List.Subset.refl _)
  | left i st _ hst =>
    refine h.set (r := ⟨st, tb.inits[i].generation, []⟩) (fun l hl => ?_) rfl List.filter_sublist.subset
    rw [show st = .active l from hl] at hst
    cases hst
  | expired => exact h.tickExpiry
  | granted before after w n c hq _ =>
    refine h.of_states (fun i => by simp) ?_
    rw [hq]
    exact ((List.sublist_cons_self w after).append_left before).subset

theorem Tables.TimeLaw.empty {tb : Tables} (h : tb.Empty) : tb.TimeLaw := by
  refine ⟨fun i l hl => ?_, fun w hw => ?_⟩
  · have := h.not_active i
    rw [hl] at this
    cases this
  · rw [h.queue] at hw
    cases hw

/-- Every event keeps the ranges of leases and waits. -/
theorem Tables.TimeLaw.event {s : State} {tb : Tables} (h : s.tables.TimeLaw)
    (hcfg : 1 ≤ s.config.leaseLength ∧ s.config.leaseLength ≤ 65535) (hs : TablesStep s tb) : tb.TimeLaw := by
  refine hs.preserve (fun _ _ he h => h.edit hcfg he) ?_ (fun _ => .empty (teardownTables_empty _))
    (fun _ => .empty (resetTables_empty _)) h
  intro tb i tb' hf h
  cases hf <;> exact h

/-! ### The counts of the state (R96, R173, R176) -/

/-- The counts of time that stand outside the tables. -/
def State.CountLaw (s : State) : Prop :=
  (1 ≤ s.config.tickPeriod ∧ s.config.tickPeriod ≤ 65535)
    ∧ (1 ≤ s.countdown ∧ s.countdown ≤ 65535)
    ∧ (1 ≤ s.config.leaseLength ∧ s.config.leaseLength ≤ 65535)
    ∧ (1 ≤ s.config.fenceLimit ∧ s.config.fenceLimit ≤ 255)
    ∧ (∀ i timer, s.flight = .timed i timer → 1 ≤ timer ∧ timer ≤ 255)
    ∧ (s.fenceTickHeld = true → s.fenceTick = true)

theorem State.timeLaw_iff {s : State} : s.TimeLaw ↔ s.CountLaw ∧ s.tables.TimeLaw := by
  unfold State.TimeLaw State.CountLaw Tables.TimeLaw
  tauto

theorem State.CountLaw.time {s t : State} (h : s.CountLaw) (he : TimeEvent s t) : t.CountLaw := by
  obtain ⟨hperiod, hcount, hlease, hlimit, htimer, hheld⟩ := h
  cases he with
  | engineTick =>
    rcases takeEngineTick_cases s with ht | ⟨-, -, -, ht⟩ <;> rw [ht] <;>
      exact ⟨hperiod, hcount, hlease, hlimit, htimer, hheld⟩
  | issue =>
    rcases issueFence_cases s with ht | ⟨-, i, rest, -, -, ht⟩ <;> rw [ht]
    · exact ⟨hperiod, hcount, hlease, hlimit, htimer, hheld⟩
    · refine ⟨hperiod, hcount, hlease, hlimit, fun j timer hj => ?_, nofun⟩
      cases hj
      exact hlimit
  | fenceTick =>
    rcases takeFenceTick_cases s with ht | ⟨-, ht | ⟨i, timer, hf, hlt, ht⟩ | ⟨i, timer, -, -, ht⟩⟩ <;> rw [ht]
    · exact ⟨hperiod, hcount, hlease, hlimit, htimer, hheld⟩
    · exact ⟨hperiod, hcount, hlease, hlimit, htimer, nofun⟩
    · refine ⟨hperiod, hcount, hlease, hlimit, fun j k hj => ?_, nofun⟩
      cases hj
      have := htimer i timer hf
      omega
    · exact ⟨hperiod, hcount, hlease, hlimit, nofun, nofun⟩
  | periods n _ =>
    refine ⟨hperiod, ?_, hlease, hlimit, htimer, ?_⟩
    · simp only [advance, State.countdownAfter]
      split
      · omega
      · exact hperiod
    · simp only [advance]
      cases s.delivers n with
      | true => simp
      | false => simpa using hheld

theorem State.CountLaw.completed {s : State} {m : MailboxId} {r : Reply} (h : s.CountLaw) :
    (s.complete m r).CountLaw := by
  simpa [State.CountLaw] using h

theorem State.CountLaw.managed {s v : State} {k : RequestKind} (h : s.CountLaw) (hm : ManagementMove s k v) :
    v.CountLaw := by
  cases hm with
  | tornDown _ =>
    obtain ⟨hperiod, hcount, hlease, hlimit, -, -⟩ := h
    exact ⟨hperiod, hcount, hlease, hlimit, nofun, nofun⟩
  | _ => exact h

theorem configInRange_iff {reg : ConfigReg} {v : Nat} :
    configInRange reg v = true ↔ (configRange reg).1 ≤ v ∧ v ≤ (configRange reg).2 := by
  cases reg with
  | guardLimit => exact decide_eq_true_iff.trans ⟨fun h => ⟨Nat.zero_le v, h⟩, fun h => h.2⟩
  | _ => simp [configInRange, configRange]

theorem State.CountLaw.written {s v : State} {who : Initiator} {data : Word} {r : Region} (h : s.CountLaw)
    (hm : WriteMove s who data r v) : v.CountLaw := by
  cases hm with
  | config word reg _ _ hv =>
    obtain ⟨hperiod, hcount, hlease, hlimit, htimer, hheld⟩ := h
    have hrange := configInRange_iff.mp hv
    cases reg with
    | tickPeriod => exact ⟨hrange, hcount, hlease, hlimit, htimer, hheld⟩
    | leaseLength => exact ⟨hperiod, hcount, hrange, hlimit, htimer, hheld⟩
    | fenceLimit => exact ⟨hperiod, hcount, hlease, hrange, htimer, hheld⟩
    | _ => exact ⟨hperiod, hcount, hlease, hlimit, htimer, hheld⟩
  | _ => exact h

theorem State.CountLaw.event {c : Instr} {s t : State} (h : s.CountLaw) (he : Event c s t) : t.CountLaw := by
  have hwrite : ∀ who addr data, (busWrite who addr data s).CountLaw := fun who addr data =>
    busWrite_keeps (P := State.CountLaw) (fun _ _ hv => hv) h fun _ hm => h.written hm
  cases he with
  | idle => exact h
  | request _ _ => exact .completed h
  | undefined _ => exact .completed h
  | undefinedManagement _ => exact .completed h
  | managed harm _ => exact .completed (h.managed (managementMove harm _ s))
  | control _ _ _ => exact hwrite _ _ _
  | window _ _ _ => exact hwrite _ _ _
  | config _ _ _ => exact hwrite _ _ _
  | refusalClear _ _ => exact hwrite _ _ _
  | read _ => exact h
  | query who granule kind =>
    obtain ⟨_, _, _, hq⟩ := takeQuery_eq who granule kind s
    rw [hq]
    exact h
  | answer code =>
    obtain ⟨hperiod, hcount, hlease, hlimit, -, hheld⟩ := id h
    rcases fenceAnswer_cases code s with ht | ⟨-, _, -, ht⟩ | ⟨-, _, _, -, ht⟩ <;> rw [ht]
    · exact h
    · exact ⟨hperiod, hcount, hlease, hlimit, nofun, hheld⟩
    · exact ⟨hperiod, hcount, hlease, hlimit, nofun, hheld⟩
  | expiry =>
    obtain ⟨hperiod, hcount, hlease, hlimit, -, -⟩ := id h
    rcases expireFenceTimer_cases s with ht | ⟨-, _, _, -, -, ht⟩ <;> rw [ht]
    · exact h
    · exact ⟨hperiod, hcount, hlease, hlimit, nofun, nofun⟩
  | time he => exact h.time he
  | released p a m => simp [State.CountLaw, releaseReset, resetConfig]
  | fell =>
    obtain ⟨hperiod, hcount, hlease, hlimit, -, hheld⟩ := h
    exact ⟨hperiod, hcount, hlease, hlimit, nofun, hheld⟩

theorem State.CountLaw.leaseLength {s : State} (h : s.CountLaw) :
    1 ≤ s.config.leaseLength ∧ s.config.leaseLength ≤ 65535 := by
  obtain ⟨-, -, hlease, -⟩ := h
  exact hlease

theorem step_keeps_timeLaw {s t : State} (h : s.TimeLaw) (hstep : step s = .next t) : t.TimeLaw := by
  refine step_keeps (P := State.TimeLaw) (fun _ _ h => h) (fun s t he h => ?_) (fun c s t he h => ?_) h hstep <;>
    rw [State.timeLaw_iff] at h ⊢ <;> obtain ⟨hcount, htables⟩ := h
  · exact ⟨hcount.time he, htables.event hcount.leaseLength he.tables⟩
  · exact ⟨hcount.event he, htables.event hcount.leaseLength he.tablesStep⟩

/-! ### Managers (R173) -/

theorem resetManagers_zero (present : PresentCount) (mgrall : Bool) :
    (resetManagers present mgrall).getLsbD 0 = true := by
  cases mgrall <;> cases present <;> rfl

theorem ConfigRegs.set_manager {c : ConfigRegs} (h : c.managerSet.getLsbD 0 = true) (reg : ConfigReg) (v : Nat) :
    (c.set reg v).managerSet.getLsbD 0 = true := by
  cases reg with
  | managerSet => simp [ConfigRegs.set]
  | _ => exact h

theorem WriteMove.config_cases {s v : State} {who : Initiator} {data : Word} {r : Region}
    (h : WriteMove s who data r v) :
    v.config = s.config ∨ ∃ reg k, s.dirState = .off ∧ v.config = s.config.set reg k := by
  cases h with
  | config word reg _ hd _ => exact .inr ⟨reg, _, hd, rfl⟩
  | _ => exact .inl rfl

/-- What a bus write does to the configuration: nothing, or one register takes a value in its range, in OFF. -/
theorem busWrite_config_cases (who : Initiator) (addr : BitVec 8) (data : Word) (s : State) :
    (busWrite who addr data s).config = s.config
      ∨ ∃ reg v, s.dirState = .off ∧ (busWrite who addr data s).config = s.config.set reg v :=
  busWrite_keeps (P := fun t => t.config = s.config ∨ ∃ reg v, s.dirState = .off ∧ t.config = s.config.set reg v)
    (fun _ _ h => h) (.inl rfl) fun _ hm => hm.config_cases

/-- What an event does to the configuration: nothing, or a write in OFF, which leaves the tables, or the release of
RESETn (R173, R179). -/
theorem Event.config_cases {c : Instr} {s t : State} (he : Event c s t) :
    t.config = s.config ∨ (s.dirState = .off ∧ t.tables = s.tables ∧ ∃ reg v, t.config = s.config.set reg v)
      ∨ ∃ p a m, t = releaseReset p a m s := by
  have hwrite : ∀ {t who addr data}, t = busWrite who addr data s → t.config = s.config
      ∨ (s.dirState = .off ∧ t.tables = s.tables ∧ ∃ reg v, t.config = s.config.set reg v)
      ∨ ∃ p a m, t = releaseReset p a m s := by
    rintro t who addr data rfl
    rcases busWrite_config_cases who addr data s with h | ⟨reg, v, hd, h⟩
    · exact .inl h
    · exact .inr (.inl ⟨hd, busWrite_tables _ _ _ _, reg, v, h⟩)
  cases he with
  | released p a m => exact .inr (.inr ⟨p, a, m, rfl⟩)
  | window _ _ _ => exact hwrite rfl
  | config _ _ _ => exact hwrite rfl
  | control _ _ _ => exact hwrite rfl
  | refusalClear _ _ => exact hwrite rfl
  | idle => exact .inl rfl
  | request _ _ => exact .inl (by rw [State.complete_config])
  | undefined _ => exact .inl (by rw [State.complete_config])
  | undefinedManagement _ => exact .inl (by rw [State.complete_config])
  | managed harm _ =>
    obtain ⟨-, -, hc, -⟩ := (managementMove harm _ s).keeps
    exact .inl (by rw [State.complete_config, hc])
  | read _ => exact .inl rfl
  | query who granule kind =>
    obtain ⟨_, _, _, hq⟩ := takeQuery_eq who granule kind s
    exact .inl (by rw [hq])
  | answer code =>
    rcases fenceAnswer_cases code s with ht | ⟨-, _, -, ht⟩ | ⟨-, _, _, -, ht⟩ <;> exact .inl (by rw [ht])
  | expiry =>
    rcases expireFenceTimer_cases s with ht | ⟨-, _, _, -, -, ht⟩
    · exact .inl (by rw [ht])
    · exact .inl (by rw [ht]; rfl)
  | time he =>
    obtain ⟨-, -, -, -, hc, -⟩ := TimeEvents.keeps (.single he)
    exact .inl hc
  | fell => exact .inl rfl

theorem State.ManagerLaw.of_config {s t : State} (h : s.ManagerLaw) (hc : t.config = s.config) : t.ManagerLaw := by
  rw [State.ManagerLaw, State.isManager, hc]
  exact h

theorem step_keeps_managerLaw {s t : State} (h : s.ManagerLaw) (hstep : step s = .next t) : t.ManagerLaw := by
  refine step_keeps (P := State.ManagerLaw) (fun _ _ h => h) (fun _ _ he h => ?_) (fun _ _ _ he h => ?_) h hstep
  · obtain ⟨-, -, -, -, hc, -⟩ := TimeEvents.keeps (.single he)
    exact h.of_config hc
  · rcases he.config_cases with hc | ⟨-, -, reg, v, hc⟩ | ⟨p, a, m, rfl⟩
    · exact h.of_config hc
    · rw [State.ManagerLaw, State.isManager, hc]
      exact ConfigRegs.set_manager h reg v
    · exact resetManagers_zero _ _

theorem step_keeps_dormantLaw {s t : State} (h : s.DormantLaw) (hstep : step s = .next t) : t.DormantLaw :=
  step_keeps (P := State.DormantLaw) (fun _ rest h hd => by
      obtain ⟨hb, hticks⟩ := h hd
      exact ⟨fun x => State.of_mailbox_congr (P := fun mb => mb.busy = false) (hb x) rfl rfl, hticks⟩)
    (fun _ _ he h => h.time he) (fun _ _ _ he h => h.event he) h hstep

/-- Settles O60: each of the six laws is kept by every event of time and every event of a command. -/
theorem stepKeepsTheLawsOfStatesFlagsAndCounts : Obligations.StepKeepsTheLawsOfStatesFlagsAndCounts :=
  ⟨⟨fun _ _ h hs => step_keeps_offLaw h hs, fun _ _ h hs => step_keeps_dormantLaw h hs⟩,
    fun _ _ h hs => step_keeps_flagLaw h hs, fun _ _ h hs => step_keeps_presentLaw h hs,
    fun _ _ h hs => step_keeps_managerLaw h hs, fun _ _ h hs => step_keeps_timeLaw h hs⟩

end Sys2Proof.Machine

/-! PROOF. The claim limit (R25).  A request counts towards the limit from its take on, as a CLAIM waiter and then as a
live record; a grant in a pass turns one into the other, and every other edit but the take itself only lowers the
count. -/

namespace Sys2Proof.Machine

/-! ### The canonical form -/

theorem expireWaiters_sorted {tb : Tables} (hs : tb.claims.Sorted) (expired : List Waiter) :
    (expired.foldl expireWaiter tb).claims.Sorted :=
  List.foldlRecOn (motive := fun tb' : Tables => tb'.claims.Sorted) expired expireWaiter hs
    fun _ h w _ => setUpgradeTicket_sorted h w none

/-- Every edit keeps the table's canonical form. -/
theorem EngineEdit.sorted {cfg : ConfigRegs} {tb tb' : Tables} (h : EngineEdit cfg tb tb') (hs : tb.claims.Sorted) :
    tb'.claims.Sorted := by
  cases h with
  | lease => exact hs
  | registered => exact hs
  | claimed => exact Claims.sorted_put hs _ _
  | upgraded => exact Claims.sorted_put hs _ _
  | queued => exact setUpgradeTicket_sorted hs _ _
  | drained => exact Claims.sorted_put hs _ _
  | redrained => exact Claims.sorted_put hs _ _
  | released n c _ _ _ =>
    cases c.upgradeTicket <;> exact Claims.sorted_free hs n
  | cleared => exact Claims.sorted_free hs _
  | cancelled => exact setUpgradeTicket_sorted hs _ _
  | noticeTaken => exact hs
  | left i st _ _ => exact Claims.sorted_alter hs fun _ c => disposeRecord i c
  | expired => exact expireWaiters_sorted (tb := { tb with queue := (tb.queue.filter fun w => !w.expires).map Waiter.lower }) hs _
  | granted => exact Claims.sorted_put hs _ _

theorem FenceEdit.sorted {tb tb' : Tables} {i : Initiator} (h : FenceEdit tb i tb') (hs : tb.claims.Sorted) :
    tb'.claims.Sorted := by
  cases h with
  | issued rest _ => exact Claims.sorted_alter hs fun _ c => some (issueDrain i c)
  | done => exact Claims.sorted_alter hs fun _ c => finishDrain i c
  | failed => exact Claims.sorted_alter hs fun _ c => some (failDrain i c)

/-! ### Counting live records -/

/-- A table in canonical form lists no record twice. -/
theorem Claims.Sorted.nodup {claims : Claims} (hs : claims.Sorted) : claims.Nodup :=
  List.Pairwise.imp (fun h => by rintro rfl; exact lt_irrefl _ h) hs

theorem Claims.put_perm {claims : Claims} (hs : claims.Sorted) (n : ClaimNo) (c : Claim) :
    (claims.put n c).Perm ((n, c) :: claims.free n) := by
  refine (List.perm_ext_iff_of_nodup (Claims.sorted_put hs n c).nodup ?_).mpr fun e => ?_
  · refine List.nodup_cons.mpr ⟨fun h => ?_, (Claims.sorted_free hs n).nodup⟩
    exact (Claims.mem_free.mp h).2 rfl
  · rw [Claims.mem_put_iff hs, List.mem_cons, Claims.mem_free]

theorem Claims.perm_of_get {claims : Claims} (hs : claims.Sorted) {n : ClaimNo} {c : Claim}
    (hg : claims.get n = some c) : claims.Perm ((n, c) :: claims.free n) := by
  refine (List.perm_ext_iff_of_nodup hs.nodup ?_).mpr fun e => ?_
  · refine List.nodup_cons.mpr ⟨fun h => ?_, (Claims.sorted_free hs n).nodup⟩
    exact (Claims.mem_free.mp h).2 rfl
  · rw [List.mem_cons, Claims.mem_free]
    obtain ⟨m, d⟩ := e
    by_cases h : m = n
    · subst h
      rw [← Claims.get_eq_some_iff hs, hg]
      simp [eq_comm]
    · simp [h]

/-- One record more or less in the count of live records of `i`. -/
def Claim.counts (c : Claim) (i : Initiator) : Nat :=
  if c.live = true ∧ c.holder = i then 1 else 0

theorem heldCount_put {claims : Claims} (hs : claims.Sorted) (n : ClaimNo) (c : Claim) (i : Initiator) :
    heldCount (claims.put n c) i = heldCount (claims.free n) i + c.counts i := by
  rw [heldCount, (Claims.put_perm hs n c).countP_eq, List.countP_cons]
  simp [heldCount, Claim.counts]

theorem heldCount_of_get {claims : Claims} (hs : claims.Sorted) {n : ClaimNo} {c : Claim}
    (hg : claims.get n = some c) (i : Initiator) : heldCount claims i = heldCount (claims.free n) i + c.counts i := by
  rw [heldCount, (Claims.perm_of_get hs hg).countP_eq, List.countP_cons]
  simp [heldCount, Claim.counts]

theorem heldCount_free_le (claims : Claims) (n : ClaimNo) (i : Initiator) :
    heldCount (claims.free n) i ≤ heldCount claims i :=
  List.filter_sublist.countP_le

theorem Claim.counts_le {c c' : Claim} (hl : c'.live = true → c.live = true) (hh : c'.holder = c.holder)
    (i : Initiator) : c'.counts i ≤ c.counts i := by
  unfold Claim.counts
  rw [hh]
  split
  · rename_i h
    rw [if_pos ⟨hl h.1, h.2⟩]
  · exact Nat.zero_le _

/-- A record that changes without coming to life counts no more than it did. -/
theorem heldCount_put_le {claims : Claims} (hs : claims.Sorted) {n : ClaimNo} {c c' : Claim}
    (hg : claims.get n = some c) (hl : c'.live = true → c.live = true) (hh : c'.holder = c.holder) (i : Initiator) :
    heldCount (claims.put n c') i ≤ heldCount claims i := by
  have := Claim.counts_le hl hh i
  rw [heldCount_put hs, heldCount_of_get hs hg]
  omega

theorem heldCount_alter_le {claims : Claims} {f : Claim → Option Claim}
    (hf : ∀ c c', f c = some c' → (c'.live = true → c.live = true) ∧ c'.holder = c.holder) (i : Initiator) :
    heldCount (claims.alter fun _ c => f c) i ≤ heldCount claims i := by
  unfold heldCount Claims.alter
  rw [List.countP_filterMap]
  refine List.countP_mono_left fun e _ he => ?_
  cases hc : f e.2 with
  | none => simp [hc] at he
  | some c' =>
    obtain ⟨hl, hh⟩ := hf e.2 c' hc
    simp only [hc, Option.map_some, Option.getD_some, Bool.and_eq_true, decide_eq_true_eq] at he ⊢
    exact ⟨hl he.1, hh ▸ he.2⟩

theorem heldCount_setUpgradeTicket (claims : Claims) (v : Waiter) (t : Option Ticket) (i : Initiator) :
    heldCount (setUpgradeTicket claims v t) i = heldCount claims i := by
  unfold setUpgradeTicket
  split
  · unfold heldCount Claims.update
    rw [List.countP_map]
    refine List.countP_congr fun e _ => ?_
    simp only [Function.comp_apply]
    split <;> rfl
  · rfl

theorem heldCount_expireWaiters (expired : List Waiter) (tb : Tables) (i : Initiator) :
    heldCount (expired.foldl expireWaiter tb).claims i = heldCount tb.claims i :=
  List.foldlRecOn (motive := fun tb' : Tables => heldCount tb'.claims i = heldCount tb.claims i) expired expireWaiter
    rfl fun _ h w _ => (heldCount_setUpgradeTicket _ w none i).trans h

/-! ### The claim count (R25) -/

/-- The CLAIM waiters of an initiator. -/
def claimWaiters (queue : List Waiter) (i : Initiator) : Nat :=
  queue.countP fun w => w.isClaim && decide (w.initiator = i)

theorem claimCount_eq (tb : Tables) (i : Initiator) :
    claimCount tb i = heldCount tb.claims i + claimWaiters tb.queue i := rfl

/-- One CLAIM waiter more or less in the count of `i`. -/
def Waiter.counts (w : Waiter) (i : Initiator) : Nat :=
  if w.isClaim = true ∧ w.initiator = i then 1 else 0

theorem claimWaiters_placeWaiter (queue : List Waiter) (v : Waiter) (i : Initiator) :
    claimWaiters (placeWaiter queue v) i = claimWaiters queue i + v.counts i := by
  rw [claimWaiters, (placeWaiter_perm queue v).countP_eq, List.countP_cons]
  simp [claimWaiters, Waiter.counts]

theorem claimWaiters_middle (before after : List Waiter) (w : Waiter) (i : Initiator) :
    claimWaiters (before ++ w :: after) i = claimWaiters (before ++ after) i + w.counts i := by
  rw [claimWaiters, List.perm_middle.countP_eq, List.countP_cons]
  simp [claimWaiters, Waiter.counts]

theorem claimWaiters_le {queue queue' : List Waiter} (h : queue'.Sublist queue) (i : Initiator) :
    claimWaiters queue' i ≤ claimWaiters queue i :=
  h.countP_le

theorem claimWaiters_lower (queue : List Waiter) (i : Initiator) :
    claimWaiters (queue.map Waiter.lower) i = claimWaiters queue i := by
  rw [claimWaiters, List.countP_map]
  rfl

/-- No edit brings an initiator above the claim limit. -/
theorem claimCount_edit {cfg : ConfigRegs} {tb tb' : Tables} (he : EngineEdit cfg tb tb') (hs : tb.claims.Sorted)
    (i : Initiator) (h : claimCount tb i ≤ cfg.claimLimit) : claimCount tb' i ≤ cfg.claimLimit := by
  rw [claimCount_eq] at h ⊢
  cases he with
  | lease => exact h
  | registered => exact h
  | claimed j mode w n _ hlimit _ =>
    have hput := heldCount_put hs n ⟨.held, j, mode, claimSpan w, tagOperand w, none⟩ i
    have hfree := heldCount_free_le tb.claims n i
    rw [claimCount_eq] at hlimit
    simp only at hput ⊢
    rw [hput, Claim.counts]
    split
    · rename_i hj
      obtain rfl : j = i := hj.2
      omega
    · omega
  | upgraded n c hg _ _ =>
    have := heldCount_put_le hs (c' := { c with mode := .exclusive, upgradeTicket := none }) hg id rfl i
    simp only
    omega
  | queued v limit _ hlimit _ _ _ _ _ _ =>
    simp only [queueWaiter, heldCount_setUpgradeTicket, claimWaiters_placeWaiter, Waiter.counts]
    split
    · rename_i hv
      obtain ⟨hclaim, rfl⟩ := hv
      have := hlimit hclaim
      rw [claimCount_eq] at this
      omega
    · omega
  | drained n c phase mode hg hheld _ _ =>
    have := heldCount_put_le hs (c' := { c with phase := phase, mode := mode }) hg
      (fun _ => by simp [Claim.live, hheld]) rfl i
    simp only
    omega
  | redrained n c stage hg _ =>
    have := heldCount_put_le hs (c' := { c with phase := .drainingOut stage }) hg nofun rfl i
    simp only
    omega
  | released n c _ _ _ =>
    have hfree := heldCount_free_le tb.claims n i
    cases c.upgradeTicket with
    | none =>
      simp only [withdrawWaiter]
      omega
    | some t =>
      have := claimWaiters_le (List.filter_sublist (l := tb.queue) (p := fun v => !decide (v.ticket = t))) i
      simp only [withdrawWaiter]
      omega
  | cleared n c _ _ =>
    have hfree := heldCount_free_le tb.claims n i
    simp only
    omega
  | cancelled v _ =>
    have := claimWaiters_le (List.filter_sublist (l := tb.queue) (p := fun x => !decide (x.ticket = v.ticket))) i
    simp only [heldCount_setUpgradeTicket]
    omega
  | noticeTaken => exact h
  | left j st _ _ =>
    have hqueue := claimWaiters_le (List.filter_sublist (l := tb.queue) (p := fun w => !decide (w.initiator = j))) i
    have hclaims := heldCount_alter_le (claims := tb.claims)
      (fun c c' hc => ⟨(disposeRecord_loosens j c c' hc).live, (disposeRecord_loosens j c c' hc).holder⟩) i
    simp only [leaveActive]
    omega
  | expired =>
    have hqueue := claimWaiters_le (List.filter_sublist (l := tb.queue) (p := fun w => !w.expires)) i
    have hclaims := heldCount_expireWaiters (tb.queue.filter Waiter.expires)
      { tb with queue := (tb.queue.filter fun w => !w.expires).map Waiter.lower } i
    rw [tickExpiry_queue, claimWaiters_lower, tickExpiry, hclaims]
    simp only
    omega
  | granted before after w n c hq hg =>
    rw [hq, claimWaiters_middle] at h
    simp only [grantWaiter_claims]
    rcases grantedRecord_eq_some.mp hg with ⟨mode, hk, _, rfl⟩ | ⟨_, d, hd, rfl⟩
    · have hput := heldCount_put hs n ⟨.held, w.initiator, mode, w.span, w.tag, none⟩ i
      have hfree := heldCount_free_le tb.claims n i
      have hsame : Claim.counts ⟨.held, w.initiator, mode, w.span, w.tag, none⟩ i = w.counts i := by
        simp [Claim.counts, Waiter.counts, Claim.live, Waiter.isClaim, hk]
      omega
    · have := heldCount_put_le hs (c' := { d with mode := .exclusive, upgradeTicket := none }) hd id rfl i
      omega

theorem claimCount_fence {tb tb' : Tables} {i : Initiator} (hf : FenceEdit tb i tb') (j : Initiator) :
    claimCount tb' j ≤ claimCount tb j := by
  have hloosens : ∀ f : Claim → Option Claim, (∀ c c', f c = some c' → c.LoosensTo c') →
      heldCount (tb.claims.alter fun _ c => f c) j ≤ heldCount tb.claims j := fun f hf =>
    heldCount_alter_le (fun c c' hc => ⟨(hf c c' hc).live, (hf c c' hc).holder⟩) j
  cases hf with
  | issued rest _ =>
    refine Nat.add_le_add_right (hloosens (fun c => some (issueDrain i c)) fun c c' hc => ?_) _
    cases hc
    exact issueDrain_loosens i c
  | done => exact Nat.add_le_add_right (hloosens (finishDrain i) (finishDrain_loosens i)) _
  | failed =>
    refine Nat.add_le_add_right (hloosens (fun c => some (failDrain i c)) fun c c' hc => ?_) _
    cases hc
    exact failDrain_loosens i c

/-- The tables within a claim limit, in canonical form. -/
def Tables.Limited (tb : Tables) (limit : Nat) : Prop :=
  tb.claims.Sorted ∧ ∀ i : Initiator, claimCount tb i ≤ limit

theorem Tables.Limited.empty {tb : Tables} (h : tb.Empty) (limit : Nat) : tb.Limited limit := by
  refine ⟨by rw [h.claims]; exact List.Pairwise.nil, fun i => ?_⟩
  rw [claimCount_eq, h.claims, h.queue]
  exact Nat.zero_le _

theorem Tables.Limited.event {s : State} {tb : Tables} (h : s.tables.Limited s.config.claimLimit)
    (hs : TablesStep s tb) : tb.Limited s.config.claimLimit := by
  refine hs.preserve (P := fun tb => tb.Limited s.config.claimLimit) ?_ ?_
    (fun _ => .empty (teardownTables_empty _) _) (fun _ => .empty (resetTables_empty _) _) h
  · rintro tb tb' he ⟨hsorted, hcount⟩
    exact ⟨he.sorted hsorted, fun i => claimCount_edit he hsorted i (hcount i)⟩
  · rintro tb i tb' hf ⟨hsorted, hcount⟩
    exact ⟨hf.sorted hsorted, fun j => (claimCount_fence hf j).trans (hcount j)⟩

/-! ### Every step -/

theorem State.limitLaw_iff {s : State} :
    s.LimitLaw ↔ s.OffLaw ∧ s.tables.Limited s.config.claimLimit := by
  unfold State.LimitLaw Tables.Limited
  tauto

/-- The limit moves in OFF alone, where no record and no waiter counts. -/
theorem Tables.Limited.of_event {c : Instr} {s t : State} (hoff : s.OffLaw)
    (h : s.tables.Limited s.config.claimLimit) (he : Event c s t) : t.tables.Limited t.config.claimLimit := by
  rcases he.config_cases with hc | ⟨hd, ht, -⟩ | ⟨p, a, m, rfl⟩
  · rw [hc]
    exact h.event he.tablesStep
  · rw [ht]
    exact .empty (State.offLaw_iff.mp hoff hd).1 _
  · exact .empty (resetTables_empty _) _

/-- Settles O56: the claim count by the edits of the engine, and the limit by the law of OFF, in which alone it moves. -/
theorem stepKeepsTheClaimLimit : Obligations.StepKeepsTheClaimLimit := by
  intro s t h hstep
  refine step_keeps (P := State.LimitLaw) (fun _ _ h => h) (fun s t he h => ?_) (fun c s t he h => ?_) h hstep <;>
    rw [State.limitLaw_iff] at h ⊢ <;> obtain ⟨hoff, hlimited⟩ := h
  · obtain ⟨-, -, -, -, hc, -⟩ := TimeEvents.keeps (.single he)
    exact ⟨hoff.time he, hc ▸ hlimited.event he.tables⟩
  · exact ⟨hoff.event he, .of_event hoff hlimited he⟩

end Sys2Proof.Machine

/-! PROOF. The laws of initiators that are not ACTIVE (R72) and of fences (R94, R96).  Both speak of the holders of records
alone, so what matters of an edit is which records of an initiator live, drain with stage PENDING or drain with stage
ISSUED after it. -/

namespace Sys2Proof.Machine

/-! ### Records whose upgrade ticket changes (R8) -/

/-- The records are those of before, but for their upgrade tickets. -/
def Claims.TicketsMoved (before after : Claims) : Prop :=
  (∀ e ∈ after, ∃ t, (e.1, { e.2 with upgradeTicket := t }) ∈ before)
    ∧ ∀ e ∈ before, ∃ t, (e.1, { e.2 with upgradeTicket := t }) ∈ after

theorem Claims.TicketsMoved.refl (claims : Claims) : claims.TicketsMoved claims :=
  ⟨fun e he => ⟨e.2.upgradeTicket, he⟩, fun e he => ⟨e.2.upgradeTicket, he⟩⟩

theorem Claims.TicketsMoved.trans {claims claims' claims'' : Claims} (h : claims.TicketsMoved claims')
    (h' : claims'.TicketsMoved claims'') : claims.TicketsMoved claims'' := by
  refine ⟨fun e he => ?_, fun e he => ?_⟩
  · obtain ⟨t, ht⟩ := h'.1 e he
    exact h.1 (e.1, { e.2 with upgradeTicket := t }) ht
  · obtain ⟨t, ht⟩ := h.2 e he
    exact h'.2 (e.1, { e.2 with upgradeTicket := t }) ht

theorem Claims.ticketsMoved_setUpgradeTicket (claims : Claims) (v : Waiter) (t : Option Ticket) :
    claims.TicketsMoved (setUpgradeTicket claims v t) := by
  unfold setUpgradeTicket
  split
  · rename_i n _
    refine ⟨fun e he => ?_, fun e he => ?_⟩
    · obtain ⟨d, hd, he⟩ := Claims.mem_update.mp he
      refine ⟨d.upgradeTicket, ?_⟩
      rw [he]
      split <;> exact hd
    · refine ⟨if e.1 = n then t else e.2.upgradeTicket, Claims.mem_update.mpr ⟨e.2, he, ?_⟩⟩
      simp only
      split <;> rfl
  · exact .refl claims

theorem expireWaiters_ticketsMoved (expired : List Waiter) (tb : Tables) :
    tb.claims.TicketsMoved (expired.foldl expireWaiter tb).claims :=
  List.foldlRecOn (motive := fun tb' : Tables => tb.claims.TicketsMoved tb'.claims) expired expireWaiter (.refl _)
    fun _ h w _ => h.trans (Claims.ticketsMoved_setUpgradeTicket _ w none)

theorem tickExpiry_ticketsMoved (tb : Tables) : tb.claims.TicketsMoved (tickExpiry tb).claims :=
  expireWaiters_ticketsMoved _ { tb with queue := (tb.queue.filter fun w => !w.expires).map Waiter.lower }

/-! ### Initiators that are not ACTIVE (R72) -/

/-- The initiator is ACTIVE. -/
abbrev Tables.Active (tb : Tables) (i : Initiator) : Prop :=
  tb.inits[i].state.isActive = true

/-- The law of R72 the other way round: what has a live record, a waiter or a notice is ACTIVE. -/
structure Tables.OwnersActive (tb : Tables) : Prop where
  records : ∀ e ∈ tb.claims, e.2.live = true → tb.Active e.2.holder
  waiters : ∀ w ∈ tb.queue, tb.Active w.initiator
  notices : ∀ i : Initiator, tb.inits[i].notices ≠ [] → tb.Active i

theorem Tables.idleLaw_iff {tb : Tables} : tb.IdleLaw ↔ tb.OwnersActive := by
  constructor
  · intro h
    refine ⟨fun e he hl => ?_, fun w hw => ?_, fun i hn => ?_⟩ <;> by_contra ha <;>
      obtain ⟨hrecords, hwaiters, hnotices⟩ := h _ (Bool.not_eq_true _ ▸ ha)
    · rw [hrecords e he rfl] at hl
      cases hl
    · exact hwaiters w hw rfl
    · exact hn hnotices
  · intro h i hi
    have hne : ¬tb.Active i := by rw [Tables.Active, hi]; exact nofun
    refine ⟨fun e he hh => ?_, fun w hw hwi => hne (hwi ▸ h.waiters w hw), ?_⟩
    · by_contra hl
      exact hne (hh ▸ h.records e he (by simpa using hl))
    · by_contra hn
      exact hne (h.notices i hn)

/-- Every live record, waiter and notice after an edit belongs to an initiator that was ACTIVE, and who was ACTIVE still
is. -/
theorem Tables.OwnersActive.of_active {tb tb' : Tables} (hactive : ∀ i, tb.Active i → tb'.Active i)
    (hrecords : ∀ e ∈ tb'.claims, e.2.live = true → tb.Active e.2.holder)
    (hwaiters : ∀ w ∈ tb'.queue, tb.Active w.initiator)
    (hnotices : ∀ i : Initiator, tb'.inits[i].notices ≠ [] → tb.Active i) : tb'.OwnersActive :=
  ⟨fun e he hl => hactive _ (hrecords e he hl), fun w hw => hactive _ (hwaiters w hw),
    fun i hn => hactive i (hnotices i hn)⟩

section Owners

variable {tb : Tables} (h : tb.OwnersActive)

include h

theorem Tables.OwnersActive.put {n : ClaimNo} {c : Claim} (hc : c.live = true → tb.Active c.holder) :
    ∀ e ∈ tb.claims.put n c, e.2.live = true → tb.Active e.2.holder := by
  intro e he hl
  rcases Claims.mem_put he with rfl | he
  · exact hc hl
  · exact h.records e he hl

/-- A record changes that was live if it is, under the same holder. -/
theorem Tables.OwnersActive.change {n : ClaimNo} {c c' : Claim} (hg : tb.claims.get n = some c)
    (hl : c'.live = true → c.live = true) (hh : c'.holder = c.holder) :
    ∀ e ∈ tb.claims.put n c', e.2.live = true → tb.Active e.2.holder :=
  h.put fun hc => by
    have := h.records _ (Claims.mem_of_get hg) (hl hc)
    rwa [← hh] at this

theorem Tables.OwnersActive.free {n : ClaimNo} :
    ∀ e ∈ tb.claims.free n, e.2.live = true → tb.Active e.2.holder :=
  fun e he => h.records e (Claims.mem_free.mp he).1

theorem Tables.OwnersActive.ticketsMoved {claims : Claims} (ht : tb.claims.TicketsMoved claims) :
    ∀ e ∈ claims, e.2.live = true → tb.Active e.2.holder := by
  intro e he hl
  obtain ⟨t, hd⟩ := ht.1 e he
  have := h.records _ hd hl
  exact this

theorem Tables.OwnersActive.alter {f : Claim → Option Claim} (hf : ∀ c c', f c = some c' → c.LoosensTo c') :
    ∀ e ∈ tb.claims.alter fun _ c => f c, e.2.live = true → tb.Active e.2.holder := by
  intro e he hl
  obtain ⟨d, hd, hfd⟩ := Claims.mem_alter.mp he
  have hloose := hf d e.2 hfd
  have := h.records _ hd (hloose.live hl)
  rwa [← hloose.holder] at this

theorem Tables.OwnersActive.appendNotice {j : Initiator} (hj : tb.Active j) (n : Notice) :
    ∀ i : Initiator, (appendNotice tb.inits j n)[i].notices ≠ [] → tb.Active i := by
  intro i hi
  rw [appendNotice_notices] at hi
  split at hi
  · rename_i hij
    exact hij ▸ hj
  · exact h.notices i hi

end Owners

theorem Tables.active_set {tb tb' : Tables} {j : Initiator} {r : InitRecord} (hi : tb'.inits = tb.inits.set j r)
    (hr : tb.Active j → r.state.isActive = true) (i : Initiator) (ha : tb.Active i) : tb'.Active i := by
  unfold Tables.Active
  rw [hi, inits_set_get]
  split
  · rename_i hij
    exact hr (hij ▸ ha)
  · exact ha

/-- The records that an initiator keeps when it leaves are not live. -/
theorem disposeRecord_not_live {i : Initiator} {c c' : Claim} (h : disposeRecord i c = some c') (hh : c'.holder = i) :
    c'.live = false := by
  unfold disposeRecord at h
  split at h
  · split at h
    · cases h
    · cases h; rfl
    · cases h; rfl
    all_goals
      rename_i hphase
      cases h
      simp [Claim.live, hphase]
  · rename_i hne
    cases h
    exact absurd hh hne

theorem Tables.OwnersActive.edit {cfg : ConfigRegs} {tb tb' : Tables} (he : EngineEdit cfg tb tb')
    (h : tb.OwnersActive) : tb'.OwnersActive := by
  have hset : ∀ {j : Initiator} {r : InitRecord}, (r.notices ≠ [] → tb.inits[j].notices ≠ []) →
      ∀ i : Initiator, (tb.inits.set j r)[i].notices ≠ [] → tb.Active i := by
    intro j r hr i hi
    rw [inits_set_get] at hi
    split at hi
    · rename_i hij
      exact hij ▸ h.notices j (hr hi)
    · exact h.notices i hi
  cases he with
  | lease i old new _ _ =>
    exact .of_active (Tables.active_set rfl fun _ => rfl) h.records h.waiters (hset id)
  | registered i g _ =>
    exact .of_active (Tables.active_set rfl fun _ => rfl) h.records h.waiters (hset id)
  | claimed i mode w n ha _ _ => exact .of_active (fun _ => id) (h.put fun _ => ha) h.waiters h.notices
  | upgraded n c hg _ _ => exact .of_active (fun _ => id) (h.change hg id rfl) h.waiters h.notices
  | queued v limit ha _ _ _ _ _ _ _ =>
    refine .of_active (fun _ => id) (h.ticketsMoved (Claims.ticketsMoved_setUpgradeTicket _ _ _)) (fun w hw => ?_)
      h.notices
    rcases List.mem_cons.mp ((placeWaiter_perm _ v).mem_iff.mp hw) with rfl | hw
    · exact ha
    · exact h.waiters w hw
  | drained n c phase mode hg hheld _ _ =>
    exact .of_active (fun _ => id) (h.change hg (fun _ => by simp [Claim.live, hheld]) rfl) h.waiters h.notices
  | redrained n c stage hg _ => exact .of_active (fun _ => id) (h.change hg nofun rfl) h.waiters h.notices
  | released n c _ _ ha =>
    cases c.upgradeTicket with
    | none => exact .of_active (fun _ => id) h.free h.waiters h.notices
    | some t =>
      exact .of_active (fun i hi => by simpa [withdrawWaiter, Tables.Active] using hi) h.free
        (fun w hw => h.waiters w (List.mem_of_mem_filter hw)) (h.appendNotice ha _)
  | cleared n c _ _ => exact .of_active (fun _ => id) h.free h.waiters h.notices
  | cancelled v _ =>
    exact .of_active (fun _ => id) (h.ticketsMoved (Claims.ticketsMoved_setUpgradeTicket _ _ _))
      (fun w hw => h.waiters w (List.mem_of_mem_filter hw)) h.notices
  | noticeTaken i n rest hn =>
    exact .of_active (Tables.active_set rfl fun ha => ha) h.records h.waiters (hset fun _ => by rw [hn]; exact nofun)
  | left i st _ _ =>
    have hother : ∀ j, j ≠ i → tb.Active j → (leaveActive tb i st).Active j := by
      intro j hj ha
      unfold Tables.Active leaveActive
      rwa [inits_set_get, if_neg hj]
    refine ⟨fun e he hl => hother _ (fun hi => ?_) (h.alter (disposeRecord_loosens i) e he hl), fun w hw => ?_,
      fun j hj => ?_⟩
    · obtain ⟨d, -, hd⟩ := Claims.mem_alter (f := fun _ c => disposeRecord i c).mp he
      rw [disposeRecord_not_live hd hi] at hl
      cases hl
    · obtain ⟨hw, hwi⟩ := List.mem_filter.mp hw
      exact hother _ (by simpa using hwi) (h.waiters w hw)
    · unfold leaveActive at hj
      rw [inits_set_get] at hj
      split at hj
      · exact absurd rfl hj
      · rename_i hji
        exact hother j hji (h.notices j hj)
  | expired =>
    refine .of_active (fun i hi => by unfold Tables.Active; rwa [tickExpiry_get])
      (h.ticketsMoved (tickExpiry_ticketsMoved tb)) (fun w hw => ?_) (fun i hi => ?_)
    · rw [tickExpiry_queue] at hw
      obtain ⟨v, hv, rfl⟩ := List.mem_map.mp hw
      exact h.waiters v (List.mem_of_mem_filter hv)
    · by_cases hn : tb.inits[i].notices = []
      · rw [tickExpiry_get, hn, List.nil_append, ne_eq, List.map_eq_nil_iff] at hi
        obtain ⟨w, hw⟩ := List.exists_mem_of_ne_nil _ hi
        obtain ⟨hw, hwi⟩ := List.mem_filter.mp hw
        exact of_decide_eq_true hwi ▸ h.waiters w (List.mem_of_mem_filter hw)
      · exact h.notices i hn
  | granted before after w n c hq hg =>
    have hw : tb.Active w.initiator := h.waiters w (by rw [hq]; simp)
    refine .of_active (fun i hi => by simpa [Tables.Active] using hi) ?_ (fun v hv => h.waiters v ?_)
      (h.appendNotice hw _)
    · rcases grantedRecord_eq_some.mp hg with ⟨mode, _, _, rfl⟩ | ⟨_, d, hd, rfl⟩
      · exact h.put fun _ => hw
      · exact h.change hd id rfl
    · rw [hq]
      exact ((List.sublist_cons_self w after).append_left before).subset hv

theorem Tables.OwnersActive.fence {tb tb' : Tables} {i : Initiator} (hf : FenceEdit tb i tb') (h : tb.OwnersActive) :
    tb'.OwnersActive := by
  cases hf with
  | issued rest _ =>
    refine .of_active (fun _ => id) (h.alter (f := fun c => some (issueDrain i c)) fun c c' hc => ?_) h.waiters h.notices
    cases hc
    exact issueDrain_loosens i c
  | done => exact .of_active (fun _ => id) (h.alter (finishDrain_loosens i)) h.waiters h.notices
  | failed =>
    refine .of_active (fun _ => id) (h.alter (f := fun c => some (failDrain i c)) fun c c' hc => ?_) h.waiters h.notices
    cases hc
    exact failDrain_loosens i c

theorem Tables.OwnersActive.empty {tb : Tables} (h : tb.Empty) : tb.OwnersActive where
  records e he := by rw [h.claims] at he; cases he
  waiters w hw := by rw [h.queue] at hw; cases hw
  notices i hi := absurd (h.inits i).1 hi

theorem step_keeps_idleLaw {s t : State} (h : s.tables.IdleLaw) (hstep : step s = .next t) : t.tables.IdleLaw := by
  have hevent : ∀ s tb, TablesStep s tb → s.tables.OwnersActive → tb.OwnersActive := fun s tb hs h =>
    hs.preserve (fun _ _ he h => h.edit he) (fun _ _ _ hf h => h.fence hf) (fun _ => .empty (teardownTables_empty _))
      (fun _ => .empty (resetTables_empty _)) h
  rw [Tables.idleLaw_iff] at h ⊢
  exact step_keeps (P := fun s => s.tables.OwnersActive) (fun _ _ h => h) (fun s _ he h => hevent s _ he.tables h)
    (fun _ s _ he h => hevent s _ he.tablesStep h) h hstep

end Sys2Proof.Machine

/-! PROOF. The fence laws (R94, R96). -/

namespace Sys2Proof.Machine

/-! ### The laws over the tables and the initiator of the fence in flight -/

/-- The initiator has a draining record with stage PENDING. -/
def Claims.Pends (claims : Claims) (i : Initiator) : Prop :=
  ∃ e ∈ claims, e.2.holder = i ∧ e.2.pendingDrain = true

/-- The fence laws over the tables, with the initiator of the fence in flight, if there is one. -/
structure FenceTablesLaw (flying : Option Initiator) (tb : Tables) : Prop where
  sorted : tb.claims.Sorted
  nodup : tb.fenceQueue.Nodup
  queued : ∀ i, i ∈ tb.fenceQueue ↔ tb.claims.Pends i
  flight : ∀ e ∈ tb.claims, e.2.issuedDrain = true → flying = some e.2.holder

theorem State.fenceLaws_iff {s : State} : s.FenceLaws ↔ s.tables.claims.Sorted
    ∧ (s.inReset = false → FenceTablesLaw s.flight.initiator s.tables) := by
  constructor
  · rintro ⟨hs, h⟩
    refine ⟨hs, fun hr => ?_⟩
    obtain ⟨⟨hnodup, hqueued⟩, hflight⟩ := h hr
    exact ⟨hs, hnodup, hqueued, hflight⟩
  · rintro ⟨hs, h⟩
    exact ⟨hs, fun hr => ⟨⟨(h hr).nodup, (h hr).queued⟩, (h hr).flight⟩⟩

/-- The two tables have the same records draining, under the same holders with the same stages. -/
structure SameDrains (claims claims' : Claims) : Prop where
  pends : ∀ i, claims'.Pends i ↔ claims.Pends i
  issued : ∀ e ∈ claims', e.2.issuedDrain = true → ∃ d ∈ claims, d.2.holder = e.2.holder ∧ d.2.issuedDrain = true

theorem SameDrains.refl (claims : Claims) : SameDrains claims claims :=
  ⟨fun _ => Iff.rfl, fun e he hi => ⟨e, he, rfl, hi⟩⟩

theorem FenceTablesLaw.same {flying : Option Initiator} {tb tb' : Tables} (h : FenceTablesLaw flying tb)
    (hs : tb'.claims.Sorted) (hd : SameDrains tb.claims tb'.claims) (hq : tb'.fenceQueue = tb.fenceQueue) :
    FenceTablesLaw flying tb' where
  sorted := hs
  nodup := hq ▸ h.nodup
  queued i := by rw [hq, h.queued, hd.pends]
  flight e he hi := by
    obtain ⟨d, hdm, hh, hdi⟩ := hd.issued e he hi
    exact hh ▸ h.flight d hdm hdi

/-- A record that is not draining. -/
theorem Claim.not_draining_of_held {c : Claim} (h : c.phase = .held) :
    c.pendingDrain = false ∧ c.issuedDrain = false := by
  simp [Claim.pendingDrain, Claim.issuedDrain, h]

theorem Claim.not_draining_of_quarantined {c : Claim} (h : c.phase = .quarantined) :
    c.pendingDrain = false ∧ c.issuedDrain = false := by
  simp [Claim.pendingDrain, Claim.issuedDrain, h]

theorem Claim.phase_of_heldShared {c : Claim} (h : c.heldShared = true) : c.phase = .held :=
  (Claim.heldShared_iff.mp h).1

/-! ### What the operations leave of the drains -/

section Drains

variable {claims : Claims} (hs : claims.Sorted)

include hs

/-- What is draining after a put: what was on another record, or the new record. -/
theorem Claims.pends_put {n : ClaimNo} {c : Claim} {i : Initiator} : (claims.put n c).Pends i ↔
    (c.holder = i ∧ c.pendingDrain = true)
      ∨ ∃ e ∈ claims, e.1 ≠ n ∧ e.2.holder = i ∧ e.2.pendingDrain = true := by
  unfold Claims.Pends
  simp only [Claims.mem_put_iff hs]
  constructor
  · rintro ⟨e, rfl | ⟨he, hn⟩, hp⟩
    · exact .inl hp
    · exact .inr ⟨e, he, hn, hp⟩
  · rintro (hp | ⟨e, he, hn, hp⟩)
    · exact ⟨(n, c), .inl rfl, hp⟩
    · exact ⟨e, .inr ⟨he, hn⟩, hp⟩

/-- What was draining: what was on another record, or record `n`. -/
theorem Claims.pends_of_get {n : ClaimNo} {c : Claim} (hg : claims.get n = some c) {i : Initiator} :
    claims.Pends i ↔ (c.holder = i ∧ c.pendingDrain = true)
      ∨ ∃ e ∈ claims, e.1 ≠ n ∧ e.2.holder = i ∧ e.2.pendingDrain = true := by
  constructor
  · rintro ⟨⟨m, d⟩, he, hp⟩
    by_cases hm : m = n
    · subst hm
      obtain rfl : c = d := Option.some.inj (hg.symm.trans ((Claims.get_eq_some_iff hs).mpr he))
      exact .inl hp
    · exact .inr ⟨_, he, hm, hp⟩
  · rintro (hp | ⟨e, he, _, hp⟩)
    · exact ⟨_, Claims.mem_of_get hg, hp⟩
    · exact ⟨e, he, hp⟩

/-- A record changes that drains as it did, under the same holder. -/
theorem SameDrains.change {n : ClaimNo} {c c' : Claim} (hg : claims.get n = some c) (hh : c'.holder = c.holder)
    (hp : c'.pendingDrain = c.pendingDrain) (hi : c'.issuedDrain = c.issuedDrain) :
    SameDrains claims (claims.put n c') := by
  refine ⟨fun i => ?_, fun e he hie => ?_⟩
  · rw [Claims.pends_put hs, Claims.pends_of_get hs hg, hh, hp]
  · rcases Claims.mem_put he with rfl | he
    · exact ⟨_, Claims.mem_of_get hg, hh.symm, hi ▸ hie⟩
    · exact ⟨e, he, rfl, hie⟩

/-- A FREE record is taken that does not drain. -/
theorem SameDrains.take {n : ClaimNo} {c : Claim} (hg : claims.get n = none) (hp : c.pendingDrain = false)
    (hi : c.issuedDrain = false) : SameDrains claims (claims.put n c) := by
  refine ⟨fun i => ?_, fun e he hie => ?_⟩
  · rw [Claims.pends_put hs]
    constructor
    · rintro (⟨_, hc⟩ | ⟨e, he, _, hpe⟩)
      · rw [hp] at hc
        cases hc
      · exact ⟨e, he, hpe⟩
    · rintro ⟨⟨m, d⟩, he, hpe⟩
      refine .inr ⟨_, he, ?_, hpe⟩
      rintro rfl
      exact Claims.get_eq_none_iff.mp hg d he
  · rcases Claims.mem_put he with rfl | he
    · rw [show Claim.issuedDrain c = true from hie] at hi
      cases hi
    · exact ⟨e, he, rfl, hie⟩

/-- A record is freed that does not drain. -/
theorem SameDrains.free {n : ClaimNo} {c : Claim} (hg : claims.get n = some c) (hp : c.pendingDrain = false) :
    SameDrains claims (claims.free n) := by
  refine ⟨fun i => ?_, fun e he hie => ⟨e, (Claims.mem_free.mp he).1, rfl, hie⟩⟩
  rw [Claims.pends_of_get hs hg, hp]
  simp only [Claims.Pends, Claims.mem_free, and_assoc, Bool.false_eq_true, and_false, false_or]

end Drains

theorem SameDrains.ticketsMoved {claims claims' : Claims} (h : claims.TicketsMoved claims') :
    SameDrains claims claims' := by
  refine ⟨fun i => ⟨?_, ?_⟩, fun e he hi => ?_⟩
  · rintro ⟨e, he, hp⟩
    obtain ⟨t, ht⟩ := h.1 e he
    exact ⟨_, ht, hp⟩
  · rintro ⟨e, he, hp⟩
    obtain ⟨t, ht⟩ := h.2 e he
    exact ⟨_, ht, hp⟩
  · obtain ⟨t, ht⟩ := h.1 e he
    exact ⟨_, ht, rfl, hi⟩

/-! ### The fence queue grows -/

theorem mem_appendFence {fenceQueue : List Initiator} {i j : Initiator} :
    j ∈ appendFence fenceQueue i ↔ j ∈ fenceQueue ∨ j = i := by
  unfold appendFence
  split
  · rename_i hi
    exact ⟨.inl, fun h => h.elim id fun hj => hj ▸ hi⟩
  · simp

theorem nodup_appendFence {fenceQueue : List Initiator} (h : fenceQueue.Nodup) (i : Initiator) :
    (appendFence fenceQueue i).Nodup := by
  unfold appendFence
  split
  · exact h
  · rename_i hi
    exact List.nodup_append.mpr ⟨h, List.nodup_singleton i, fun a ha b hb hab => hi (by
      rw [List.mem_singleton] at hb
      exact hb ▸ hab ▸ ha)⟩

/-- A HELD record begins to drain. -/
theorem FenceTablesLaw.drained {flying : Option Initiator} {tb : Tables} (h : FenceTablesLaw flying tb) {n : ClaimNo}
    {c : Claim} (hg : tb.claims.get n = some c) (hheld : c.phase = .held) {phase : Phase} {mode : Mode}
    (hphase : phase = .drainingDown .pending ∨ phase = .drainingOut .pending) :
    FenceTablesLaw flying { tb with
      claims := tb.claims.put n { c with phase := phase, mode := mode }
      fenceQueue := appendFence tb.fenceQueue c.holder } where
  sorted := Claims.sorted_put h.sorted _ _
  nodup := nodup_appendFence h.nodup _
  queued i := by
    have hp : Claim.pendingDrain { c with phase := phase, mode := mode } = true := by
      rcases hphase with rfl | rfl <;> rfl
    rw [mem_appendFence, h.queued, Claims.pends_put h.sorted, Claims.pends_of_get h.sorted hg,
      (Claim.not_draining_of_held hheld).1, hp]
    simp only [Bool.false_eq_true, and_false, false_or, and_true, eq_comm, or_comm]
  flight e he hi := by
    rcases Claims.mem_put he with rfl | he
    · rcases hphase with rfl | rfl <;> cases hi
    · exact h.flight e he hi

/-! ### An initiator leaves (R78, R82) -/

/-- What a record that leaves with its holder drains as: what drained goes on. -/
theorem disposeRecord_drains {i : Initiator} {c : Claim} (hp : c.pendingDrain = true) :
    ∃ c', disposeRecord i c = some c' ∧ c'.holder = c.holder ∧ c'.pendingDrain = true := by
  unfold disposeRecord
  split
  · cases hphase : c.phase with
    | drainingDown stage =>
      refine ⟨_, rfl, rfl, ?_⟩
      cases stage with
      | pending => rfl
      | issued => simp [Claim.pendingDrain, hphase] at hp
    | drainingOut stage => exact ⟨c, rfl, rfl, hp⟩
    | held => simp [Claim.pendingDrain, hphase] at hp
    | quarantined => simp [Claim.pendingDrain, hphase] at hp
  · exact ⟨c, rfl, rfl, hp⟩

/-- A disposal issues no drain. -/
theorem disposeRecord_issued {i : Initiator} {c c' : Claim} (h : disposeRecord i c = some c')
    (hi : c'.issuedDrain = true) : c.issuedDrain = true := by
  unfold disposeRecord at h
  split at h
  · split at h
    · cases h
    · cases h; cases hi
    · rename_i stage hphase
      cases h
      cases stage with
      | pending => cases hi
      | issued => simp [Claim.issuedDrain, hphase]
    all_goals
      cases h
      exact hi
  · cases h
    exact hi

theorem FenceTablesLaw.left {flying : Option Initiator} {tb : Tables} (h : FenceTablesLaw flying tb) (i : Initiator)
    (st : InitState) : FenceTablesLaw flying (leaveActive tb i st) := by
  have hkept : ∀ j, tb.claims.Pends j → (leaveActive tb i st).claims.Pends j := by
    rintro j ⟨⟨n, d⟩, he, hh, hp⟩
    obtain ⟨c', hc', hh', hp'⟩ := disposeRecord_drains (i := i) hp
    exact ⟨(n, c'), (Claims.mem_alter (f := fun _ c => disposeRecord i c)).mpr ⟨d, he, hc'⟩, hh'.trans hh, hp'⟩
  have hother : ∀ j, j ≠ i → (leaveActive tb i st).claims.Pends j → tb.claims.Pends j := by
    rintro j hj ⟨e, he, hh, hp⟩
    obtain ⟨d, hd, hdis⟩ := Claims.mem_alter (f := fun _ c => disposeRecord i c).mp he
    have hholder := (disposeRecord_loosens i d e.2 hdis).holder
    rw [disposeRecord_of_holder_ne (by rw [← hholder, hh]; exact hj)] at hdis
    cases hdis
    exact ⟨_, hd, hh, hp⟩
  have hany : ((leaveActive tb i st).claims.any fun e => e.2.pendingDrain && decide (e.2.holder = i)) = true
      ↔ (leaveActive tb i st).claims.Pends i := by
    simp [Claims.Pends, and_comm]
  have hfence : (leaveActive tb i st).fenceQueue
      = fenceAfterLeave (leaveActive tb i st).claims tb.fenceQueue i := rfl
  refine ⟨Claims.sorted_alter h.sorted fun _ c => disposeRecord i c, ?_, fun j => ?_, fun e he hi => ?_⟩
  · rw [hfence, fenceAfterLeave]
    split
    · exact nodup_appendFence h.nodup i
    · exact h.nodup
  · rw [hfence, fenceAfterLeave]
    split
    · rename_i hp
      rw [mem_appendFence, h.queued]
      by_cases hj : j = i
      · subst hj
        exact ⟨fun _ => hany.mp hp, fun _ => .inr rfl⟩
      · exact ⟨fun hm => hkept j (hm.resolve_right hj), fun hm => .inl (hother j hj hm)⟩
    · rename_i hp
      rw [h.queued]
      refine ⟨hkept j, fun hm => hother j ?_ hm⟩
      rintro rfl
      exact hp (hany.mpr hm)
  · obtain ⟨d, hd, hdis⟩ := Claims.mem_alter (f := fun _ c => disposeRecord i c).mp he
    rw [(disposeRecord_loosens i d e.2 hdis).holder]
    exact h.flight _ hd (disposeRecord_issued hdis hi)

/-! ### The edits of the engine -/

theorem FenceTablesLaw.edit {cfg : ConfigRegs} {flying : Option Initiator} {tb tb' : Tables}
    (he : EngineEdit cfg tb tb') (h : FenceTablesLaw flying tb) : FenceTablesLaw flying tb' := by
  have hsorted := he.sorted h.sorted
  cases he with
  | lease => exact h.same hsorted (.refl _) rfl
  | registered => exact h.same hsorted (.refl _) rfl
  | claimed i mode w n _ _ hn =>
    exact h.same hsorted (.take h.sorted (Claims.lowestFree_eq_some.mp hn).1 rfl rfl) rfl
  | upgraded n c hg _ _ => exact h.same hsorted (.change h.sorted hg rfl rfl rfl) rfl
  | queued => exact h.same hsorted (.ticketsMoved (Claims.ticketsMoved_setUpgradeTicket _ _ _)) rfl
  | drained n c phase mode hg hheld _ hphase => exact h.drained hg hheld hphase
  | redrained n c stage hg hphase =>
    refine h.same hsorted (.change h.sorted hg rfl ?_ ?_) rfl <;>
      cases stage <;> simp [Claim.pendingDrain, Claim.issuedDrain, hphase]
  | released n c hg hc _ =>
    have hsame : SameDrains tb.claims (tb.claims.free n) :=
      .free h.sorted hg (Claim.not_draining_of_held (Claim.phase_of_heldShared hc)).1
    cases hticket : c.upgradeTicket <;> rw [hticket] at hsorted <;> exact h.same hsorted hsame rfl
  | cleared n c hg hq => exact h.same hsorted (.free h.sorted hg (Claim.not_draining_of_quarantined hq).1) rfl
  | cancelled => exact h.same hsorted (.ticketsMoved (Claims.ticketsMoved_setUpgradeTicket _ _ _)) rfl
  | noticeTaken => exact h.same hsorted (.refl _) rfl
  | left i st _ _ => exact h.left i st
  | expired => exact h.same hsorted (.ticketsMoved (tickExpiry_ticketsMoved tb)) (tickExpiry_fenceQueue tb)
  | granted before after w n c _ hg =>
    rcases grantedRecord_eq_some.mp hg with ⟨mode, _, hn, rfl⟩ | ⟨_, d, hd, rfl⟩
    · exact h.same hsorted (.take h.sorted (Claims.lowestFree_eq_some.mp hn).1 rfl rfl) rfl
    · exact h.same hsorted (.change h.sorted hd rfl rfl rfl) rfl

theorem FenceTablesLaw.edits {cfg : ConfigRegs} {flying : Option Initiator} {tb tb' : Tables}
    (he : EngineEdits cfg tb tb') (h : FenceTablesLaw flying tb) : FenceTablesLaw flying tb' :=
  he.preserve (fun _ _ he h => h.edit he) h

theorem FenceTablesLaw.empty {tb : Tables} (h : tb.Empty) : FenceTablesLaw none tb where
  sorted := by rw [h.claims]; exact List.Pairwise.nil
  nodup := by rw [h.fenceQueue]; exact List.nodup_nil
  queued i := by simp [Claims.Pends, h.claims, h.fenceQueue]
  flight e he := by rw [h.claims] at he; cases he

/-! ### The edits of the fence unit (R13 to R15) -/

/-- The issue makes the PENDING drains of `i` ISSUED, and changes no other record. -/
theorem issueDrain_pending {i : Initiator} {c : Claim} :
    (issueDrain i c).pendingDrain = (c.pendingDrain && !decide (c.holder = i)) := by
  unfold issueDrain
  split
  · rename_i hh
    split <;> rename_i hphase <;> simp [Claim.pendingDrain, hphase, hh]
  · rename_i hh
    simp [hh]

theorem issueDrain_issued {i : Initiator} {c : Claim} (h : (issueDrain i c).issuedDrain = true) :
    c.holder = i ∨ c.issuedDrain = true := by
  by_cases hh : c.holder = i
  · exact .inl hh
  · rw [issueDrain, if_neg hh] at h
    exact .inr h

theorem Claims.mem_alter_some {claims : Claims} {f : Claim → Claim} {e : ClaimNo × Claim} :
    e ∈ (claims.alter fun _ c => some (f c)) ↔ ∃ d, (e.1, d) ∈ claims ∧ e.2 = f d := by
  rw [Claims.mem_alter]
  simp only [Option.some.injEq, eq_comm]

theorem FenceTablesLaw.issued {tb : Tables} (h : FenceTablesLaw none tb) {i : Initiator} {rest : List Initiator}
    (hq : tb.fenceQueue = i :: rest) : FenceTablesLaw (some i) (issueTables tb i rest) where
  sorted := Claims.sorted_alter h.sorted fun _ c => some (issueDrain i c)
  nodup := (List.nodup_cons.mp (hq ▸ h.nodup)).2
  queued j := by
    have hi : i ∉ rest := (List.nodup_cons.mp (hq ▸ h.nodup)).1
    have hpends : (issueTables tb i rest).claims.Pends j ↔ j ≠ i ∧ tb.claims.Pends j := by
      constructor
      · rintro ⟨e, he, hh, hp⟩
        obtain ⟨d, hd, he⟩ := Claims.mem_alter_some.mp he
        rw [he, issueDrain_pending, Bool.and_eq_true] at hp
        rw [he, (issueDrain_loosens i d).holder] at hh
        exact ⟨by simpa [hh] using hp.2, _, hd, hh, hp.1⟩
      · rintro ⟨hj, ⟨n, d⟩, hd, hh, hp⟩
        refine ⟨(n, issueDrain i d), Claims.mem_alter_some.mpr ⟨d, hd, rfl⟩, ?_, ?_⟩
        · exact (issueDrain_loosens i d).holder.trans hh
        · rw [issueDrain_pending, Bool.and_eq_true]
          exact ⟨hp, by simpa [show d.holder = j from hh] using hj⟩
    rw [hpends, ← h.queued, hq, List.mem_cons]
    exact ⟨fun hj => ⟨fun hji => hi (hji ▸ hj), .inr hj⟩, fun ⟨hne, hj⟩ => hj.resolve_left hne⟩
  flight e he hi := by
    obtain ⟨d, hd, he⟩ := Claims.mem_alter_some.mp he
    rw [he] at hi ⊢
    rw [(issueDrain_loosens i d).holder]
    rcases issueDrain_issued hi with hh | hissued
    · rw [hh]
    · cases h.flight _ hd hissued

/-- The two outcomes of a fence leave a record that does not drain with stage ISSUED under its initiator. -/
structure EndsFence (i : Initiator) (f : Claim → Option Claim) : Prop where
  kept : ∀ c, (c.holder = i → c.issuedDrain = false) → f c = some c
  ended : ∀ c c', c.holder = i → c.issuedDrain = true → f c = some c' →
    c'.issuedDrain = false ∧ c'.pendingDrain = false

theorem finishDrain_endsFence (i : Initiator) : EndsFence i (finishDrain i) where
  kept _ h := finishDrain_of_not_issuedDrain h
  ended c c' hh hi hc := by
    unfold finishDrain at hc
    rw [if_pos hh] at hc
    split at hc
    · cases hc
    · cases hc
      exact ⟨rfl, rfl⟩
    all_goals
      rename_i hphase
      simp [Claim.issuedDrain, hphase] at hi

theorem failDrain_endsFence (i : Initiator) : EndsFence i (fun c => some (failDrain i c)) where
  kept c h := by
    unfold failDrain
    split
    · rename_i hh
      split
      · rename_i hphase
        simp [Claim.issuedDrain, hphase] at h
        exact absurd hh h
      · rename_i hphase
        simp [Claim.issuedDrain, hphase] at h
        exact absurd hh h
      all_goals rfl
    · rfl
  ended c c' hh hi hc := by
    cases hc
    unfold failDrain
    rw [if_pos hh]
    split
    · exact ⟨rfl, rfl⟩
    · exact ⟨rfl, rfl⟩
    all_goals
      rename_i hphase
      simp [Claim.issuedDrain, hphase] at hi

/-- No record drains with both stages. -/
theorem Claim.not_issued_of_pending {c : Claim} (h : c.pendingDrain = true) : c.issuedDrain = false := by
  unfold Claim.pendingDrain at h
  split at h
  · rename_i hphase; simp [Claim.issuedDrain, hphase]
  · rename_i hphase; simp [Claim.issuedDrain, hphase]
  all_goals cases h

theorem FenceTablesLaw.ended {tb : Tables} {i : Initiator} (h : FenceTablesLaw (some i) tb)
    {f : Claim → Option Claim} (hf : EndsFence i f) :
    FenceTablesLaw none { tb with claims := tb.claims.alter fun _ c => f c } := by
  have hback : ∀ e ∈ tb.claims.alter fun _ c => f c,
      (e.2.issuedDrain = false ∧ e.2.pendingDrain = false) ∨ (e ∈ tb.claims ∧ e.2.issuedDrain = false) := by
    rintro ⟨n, c'⟩ he
    obtain ⟨d, hd, hfd⟩ := Claims.mem_alter.mp he
    cases hi : d.issuedDrain with
    | true =>
      have hholder : d.holder = i := (Option.some.inj (h.flight _ hd hi)).symm
      exact .inl (hf.ended d c' hholder hi hfd)
    | false =>
      rw [hf.kept d fun _ => hi] at hfd
      cases hfd
      exact .inr ⟨hd, hi⟩
  refine ⟨Claims.sorted_alter h.sorted fun _ c => f c, h.nodup, fun j => ?_, fun e he hi => ?_⟩
  · rw [h.queued]
    constructor
    · rintro ⟨⟨n, d⟩, hd, hh, hp⟩
      refine ⟨(n, d), (Claims.mem_alter (f := fun _ c => f c)).mpr ⟨d, hd, hf.kept d fun _ => ?_⟩, hh, hp⟩
      exact Claim.not_issued_of_pending hp
    · rintro ⟨e, he, hh, hp⟩
      rcases hback e he with ⟨-, hnp⟩ | ⟨he, -⟩
      · rw [hnp] at hp
        cases hp
      · exact ⟨e, he, hh, hp⟩
  · rcases hback e he with ⟨hni, -⟩ | ⟨-, hni⟩ <;>
    · rw [hni] at hi
      cases hi

/-! ### What an event does to the fence and the tables together -/

/-- What one event makes of the fence in flight and of the tables. -/
inductive FenceMove (s t : State) : Prop where
  /-- The fence stays, or defers or runs on. -/
  | engine (hr : t.inReset = s.inReset) (hf : t.flight.initiator = s.flight.initiator)
      (he : EngineEdits s.config s.tables t.tables) : FenceMove s t
  | issued (i : Initiator) (rest : List Initiator) (hr : s.inReset = false) (hf : s.flight = .idle)
      (hq : s.tables.fenceQueue = i :: rest) (ht : t.flight.initiator = some i)
      (he : t.tables = issueTables s.tables i rest) : FenceMove s t
  | ended (i : Initiator) (f : Claim → Option Claim) (hr : s.inReset = false) (hf : s.flight.initiator = some i)
      (hends : EndsFence i f) (ht : t.flight = .idle)
      (he : EngineEdits s.config { s.tables with claims := s.tables.claims.alter fun _ c => f c } t.tables) :
      FenceMove s t
  /-- The teardown, and the release of RESETn. -/
  | emptied (ht : t.flight = .idle) (he : t.tables.Empty) : FenceMove s t
  /-- RESETn falls. -/
  | fell (hr : t.inReset = true) (he : t.tables = s.tables) : FenceMove s t

theorem FenceMove.same {s t : State} (hr : t.inReset = s.inReset) (hf : t.flight = s.flight)
    (he : t.tables = s.tables) : FenceMove s t :=
  .engine hr (by rw [hf]) (by rw [he])

theorem doneOutcome_edits (cfg : ConfigRegs) (tb : Tables) (i : Initiator) :
    EngineEdits cfg { tb with claims := tb.claims.alter fun _ c => finishDrain i c } (doneOutcome tb i) :=
  grantPassIf_edits .refl _

theorem failedOutcome_edits (cfg : ConfigRegs) (tb : Tables) (i : Initiator) :
    EngineEdits cfg { tb with claims := tb.claims.alter fun _ c => some (failDrain i c) } (failedOutcome tb i) :=
  grantPassIf_edits .refl _

theorem FenceMove.failed {s t : State} {i : Initiator} {timer : Nat} (hready : s.fenceTickReady = true)
    (hf : s.flight = .timed i timer) (ht : t = failFence i s.fenceTickTaken) : FenceMove s t := by
  subst ht
  exact .ended i (fun c => some (failDrain i c)) (fenceTickReady_iff.mp hready).1 (by rw [hf]; rfl)
    (failDrain_endsFence i) rfl (failedOutcome_edits _ _ i)

theorem TimeEvent.fenceMove {s t : State} (h : TimeEvent s t) : FenceMove s t := by
  cases h with
  | engineTick =>
    rcases takeEngineTick_cases s with ht | ⟨-, -, -, ht⟩ <;> rw [ht]
    · exact .same rfl rfl rfl
    · exact .engine rfl rfl (tickTables_edits _ _)
  | issue =>
    rcases issueFence_cases s with ht | ⟨hr, i, rest, hf, hq, ht⟩ <;> rw [ht]
    · exact .same rfl rfl rfl
    · exact .issued i rest hr hf hq rfl rfl
  | fenceTick =>
    rcases takeFenceTick_cases s with ht | ⟨hready, ht | ⟨i, timer, hf, -, ht⟩ | ⟨i, timer, hf, -, ht⟩⟩
    · exact .same (by rw [ht]) (by rw [ht]) (by rw [ht])
    · exact .same (by rw [ht]; rfl) (by rw [ht]; rfl) (by rw [ht]; rfl)
    · exact .engine (by rw [ht]; rfl) (by rw [ht, hf]; rfl) (by rw [ht]; exact .refl)
    · exact .failed hready hf ht
  | periods n _ => exact .same rfl rfl rfl

theorem ManagementMove.fenceMove {s v : State} {k : RequestKind} (h : ManagementMove s k v) : FenceMove s v := by
  cases h with
  | tornDown _ => exact .emptied rfl (teardownTables_empty _)
  | evicted i _ ha => exact .engine rfl rfl (evictTables_edits ha)
  | cleared n c _ hg hq =>
    exact .engine rfl rfl (.trans (.single (.cleared n c hg hq)) (grantPass_edits _ _))
  | _ => exact .same rfl rfl rfl

/-- The completion of a request sees neither the fence nor the tables. -/
theorem FenceMove.completed {s v : State} {m : MailboxId} {r : Reply} (h : FenceMove s v) :
    FenceMove s (v.complete m r) := by
  cases h with
  | engine hr hf he => exact .engine (by simpa using hr) (by simpa using hf) (by simpa using he)
  | issued i rest hr hf hq ht he => exact .issued i rest hr hf hq (by simpa using ht) (by simpa using he)
  | ended i f hr hf hends ht he => exact .ended i f hr hf hends (by simpa using ht) (by simpa using he)
  | emptied ht he => exact .emptied (by simpa using ht) (by simpa using he)
  | fell hr he => exact .fell (by simpa using hr) (by simpa using he)

theorem WriteMove.fence {s v : State} {who : Initiator} {data : Word} {r : Region} (h : WriteMove s who data r v) :
    v.inReset = s.inReset ∧ v.flight = s.flight ∧ v.tables = s.tables := by
  cases h <;> exact ⟨rfl, rfl, rfl⟩

theorem Event.fenceMove {c : Instr} {s t : State} (h : Event c s t) : FenceMove s t := by
  have hwrite : ∀ who addr data, FenceMove s (busWrite who addr data s) := fun who addr data =>
    busWrite_keeps (P := FenceMove s)
      (fun _ _ hv => by cases hv with
        | engine hr hf he => exact .engine hr hf he
        | issued i rest hr hf hq ht he => exact .issued i rest hr hf hq ht he
        | ended i f hr hf hends ht he => exact .ended i f hr hf hends ht he
        | emptied ht he => exact .emptied ht he
        | fell hr he => exact .fell hr he)
      (.same rfl rfl rfl) fun _ hm => .same hm.fence.1 hm.fence.2.1 hm.fence.2.2
  cases h with
  | idle => exact .same rfl rfl rfl
  | @request _ _ k judge i w harm htakes =>
    refine FenceMove.completed (.engine rfl rfl ?_)
    simp only
    rcases State.judgeInitiator_cases s k judge i w with ⟨o, hj⟩ | ⟨hg, hj⟩ <;> rw [hj]
    · exact afterTake_edits s i
    · exact (afterTake_edits s i).trans
        (judged_edits (mem_initiatorJudges_of_arm harm) (gate_afterTake hg) s.config w)
  | @undefined _ i _ _ => exact FenceMove.completed (.engine rfl rfl (afterTake_edits s i))
  | undefinedManagement _ => exact FenceMove.completed (.same rfl rfl rfl)
  | managed harm _ => exact (managementMove harm _ s).fenceMove.completed
  | control _ _ _ => exact hwrite _ _ _
  | window _ _ _ => exact hwrite _ _ _
  | config _ _ _ => exact hwrite _ _ _
  | refusalClear _ _ => exact hwrite _ _ _
  | read _ => exact .same rfl rfl rfl
  | query who granule kind =>
    obtain ⟨_, _, _, hq⟩ := takeQuery_eq who granule kind s
    exact .same (by rw [hq]) (by rw [hq]) (by rw [hq])
  | answer code =>
    rcases fenceAnswer_cases code s with ht | ⟨hr, i, hf, ht⟩ | ⟨hr, i, timer, hf, ht⟩ <;> rw [ht]
    · exact .same rfl rfl rfl
    · exact .ended i (finishDrain i) hr hf (finishDrain_endsFence i) rfl (doneOutcome_edits _ _ i)
    · exact .engine rfl (by rw [hf]; rfl) .refl
  | expiry =>
    rcases expireFenceTimer_cases s with ht | ⟨hready, i, timer, hf, -, ht⟩
    · exact .same (by rw [ht]) (by rw [ht]) (by rw [ht])
    · exact .failed hready hf ht
  | time he => exact he.fenceMove
  | released p a m => exact .emptied rfl (resetTables_empty _)
  | fell => exact .fell rfl rfl

/-- Every event keeps the fence laws. -/
theorem State.FenceLaws.move {s t : State} (h : s.FenceLaws) (hm : FenceMove s t) : t.FenceLaws := by
  rw [State.fenceLaws_iff] at h ⊢
  obtain ⟨hs, h⟩ := h
  cases hm with
  | engine hr hf he =>
    refine ⟨he.preserve (P := fun tb => tb.claims.Sorted) (fun _ _ he h => he.sorted h) hs, fun hrun => ?_⟩
    rw [hf]
    exact (h (hr ▸ hrun)).edits he
  | issued i rest hr hf hq ht he =>
    have hlaw := h hr
    rw [hf] at hlaw
    have := hlaw.issued hq
    rw [he, ht]
    exact ⟨this.sorted, fun _ => this⟩
  | ended i f hr hf hends ht he =>
    have hlaw := h hr
    rw [hf] at hlaw
    have := (hlaw.ended hends).edits he
    rw [ht]
    exact ⟨this.sorted, fun _ => this⟩
  | emptied ht he =>
    have := FenceTablesLaw.empty he
    rw [ht]
    exact ⟨this.sorted, fun _ => this⟩
  | fell hr he =>
    rw [he, hr]
    exact ⟨hs, nofun⟩

/-- Settles O59: the law of initiators by the edits of the tables, the fence laws by the moves of the fence in flight and
the tables together. -/
theorem stepKeepsTheLawsOfInitiatorsAndFences : Obligations.StepKeepsTheLawsOfInitiatorsAndFences :=
  ⟨fun _ _ h hstep => step_keeps_idleLaw h hstep, fun _ _ h hstep =>
    step_keeps (P := State.FenceLaws) (fun _ _ h => h) (fun _ _ he h => h.move he.fenceMove)
      (fun _ _ _ he h => h.move he.fenceMove) h hstep⟩

end Sys2Proof.Machine

/-! PROOF. Tickets (R65 to R67): the ticket that the counter issues, and the open tickets as pairs of an initiator and a
ticket, which count the open tickets of one initiator and list those of all. -/

namespace Sys2Proof.Machine

/-! ### The search for a closed number (R66) -/

/-- The search passes over open numbers alone, and stops at a closed one unless its fuel ends. -/
theorem firstClosed_spec (opened : List Ticket) (fuel : Nat) (t : Ticket) :
    ∃ k, k ≤ fuel ∧ firstClosed opened fuel t = nextTicket^[k] t ∧ (∀ j, j < k → nextTicket^[j] t ∈ opened)
      ∧ (firstClosed opened fuel t ∈ opened → k = fuel) := by
  induction fuel generalizing t with
  | zero => exact ⟨0, le_rfl, rfl, fun j hj => absurd hj (Nat.not_lt_zero j), fun _ => rfl⟩
  | succ fuel ih =>
    by_cases ht : t ∈ opened
    · obtain ⟨k, hk, heq, hpassed, hopen⟩ := ih (nextTicket t)
      have hstep : firstClosed opened (fuel + 1) t = firstClosed opened fuel (nextTicket t) := if_pos ht
      refine ⟨k + 1, by omega, hstep.trans heq, fun j hj => ?_, fun h => ?_⟩
      · cases j with
        | zero => exact ht
        | succ j => exact hpassed j (by omega)
      · rw [hopen (hstep ▸ h)]
    · have hstop : firstClosed opened (fuel + 1) t = t := if_neg ht
      exact ⟨0, Nat.zero_le _, hstop, fun j hj => absurd hj (Nat.not_lt_zero j), fun h => absurd (hstop ▸ h) ht⟩

theorem nextTicket_toNat {t : Ticket} (h : t ≠ 0) : (nextTicket t).toNat = t.toNat % 65535 + 1 := by
  have hpos : t.toNat ≠ 0 := fun h0 => h (BitVec.eq_of_toNat_eq h0)
  unfold nextTicket
  split
  · rename_i hmax
    subst hmax
    rfl
  · rename_i hmax
    have hlt : t.toNat ≠ 65535 := fun he => hmax (BitVec.eq_of_toNat_eq he)
    have := t.isLt
    rw [BitVec.toNat_add]
    change (t.toNat + 1) % 65536 = _
    omega

theorem nextTicket_ne_zero {t : Ticket} (h : t ≠ 0) : nextTicket t ≠ 0 := by
  intro h0
  have := nextTicket_toNat h
  rw [h0] at this
  simp at this

/-- The numbers from 1 to 65,535 follow one another round a ring. -/
theorem nextTicket_iterate {t : Ticket} (h : t ≠ 0) (k : Nat) :
    nextTicket^[k] t ≠ 0 ∧ (nextTicket^[k] t).toNat = (t.toNat - 1 + k) % 65535 + 1 := by
  have hpos : t.toNat ≠ 0 := fun h0 => h (BitVec.eq_of_toNat_eq h0)
  induction k with
  | zero =>
    refine ⟨h, ?_⟩
    have := t.isLt
    rw [Function.iterate_zero, id]
    omega
  | succ k ih =>
    rw [Function.iterate_succ_apply']
    exact ⟨nextTicket_ne_zero ih.1, by rw [nextTicket_toNat ih.1, ih.2]; omega⟩

/-- Fewer than 65,535 numbers in a row are distinct. -/
theorem nextTicket_iterate_nodup {t : Ticket} (h : t ≠ 0) {n : Nat} (hn : n ≤ 65535) :
    ((List.range n).map fun k => nextTicket^[k] t).Nodup := by
  refine List.Nodup.map_on (fun j hj k hk he => ?_) List.nodup_range
  have hj' := List.mem_range.mp hj
  have hk' := List.mem_range.mp hk
  have hval := congrArg BitVec.toNat he
  rw [(nextTicket_iterate h j).2, (nextTicket_iterate h k).2] at hval
  omega

/-- So many open numbers in a row cannot be among fewer open tickets (R66). -/
theorem firstClosed_not_mem {opened : List Ticket} {t : Ticket} (h : t ≠ 0) (hlen : opened.length < 65535) :
    firstClosed opened opened.length t ∉ opened := by
  intro hmem
  obtain ⟨k, -, heq, hpassed, hopen⟩ := firstClosed_spec opened opened.length t
  have hk := hopen hmem
  have hsub : ((List.range (k + 1)).map fun j => nextTicket^[j] t) ⊆ opened := by
    intro x hx
    obtain ⟨j, hj, rfl⟩ := List.mem_map.mp hx
    rcases Nat.lt_succ_iff_lt_or_eq.mp (List.mem_range.mp hj) with hj | rfl
    · exact hpassed j hj
    · exact heq ▸ hmem
  have hle := (List.subperm_of_subset (nextTicket_iterate_nodup h (by omega)) hsub).length_le
  rw [List.length_map, List.length_range] at hle
  omega

/-! ### Open tickets with their initiators (R65, R67) -/

/-- The initiator and the ticket of a waiter. -/
def Waiter.openPair (w : Waiter) : Initiator × Ticket :=
  (w.initiator, w.ticket)

/-- The notices of initiator `i`, each with the initiator. -/
def noticePairs (i : Initiator) (notices : List Notice) : List (Initiator × Ticket) :=
  notices.map fun n => (i, n.ticket)

/-- The open tickets in the notice lists, each with its initiator. -/
def noticedPairs (inits : Vector InitRecord 8) : List (Initiator × Ticket) :=
  (List.finRange 8).flatMap fun i => noticePairs i inits[i].notices

/-- The open tickets of all initiators, each with its initiator. -/
def openPairs (tb : Tables) : List (Initiator × Ticket) :=
  tb.queue.map Waiter.openPair ++ noticedPairs tb.inits

theorem openTickets_eq (tb : Tables) : openTickets tb = (openPairs tb).map (·.2) := by
  simp only [openTickets, openPairs, noticedPairs, noticePairs, List.map_append, List.map_map, List.map_flatMap]
  rfl

/-- The notices of `i`, apart from those of the other initiators. -/
theorem noticedPairs_perm (inits : Vector InitRecord 8) (i : Initiator) :
    (noticedPairs inits).Perm (noticePairs i inits[i].notices
      ++ ((List.finRange 8).erase i).flatMap fun j => noticePairs j inits[j].notices) :=
  (List.perm_cons_erase (List.mem_finRange i)).flatMap_right _

/-- Setting one record changes the open tickets of its initiator alone. -/
theorem noticedPairs_set (inits : Vector InitRecord 8) (i : Initiator) (r : InitRecord) :
    (noticedPairs (inits.set i r) ++ noticePairs i inits[i].notices).Perm
      (noticedPairs inits ++ noticePairs i r.notices) := by
  have hothers : (((List.finRange 8).erase i).flatMap fun j => noticePairs j (inits.set i r)[j].notices)
      = ((List.finRange 8).erase i).flatMap fun j => noticePairs j inits[j].notices := by
    refine List.flatMap_congr fun j hj => ?_
    have hji : j ≠ i := ((List.nodup_finRange 8).mem_erase_iff.mp hj).1
    rw [inits_set_get, if_neg hji]
  have hset := noticedPairs_perm (inits.set i r) i
  rw [hothers, inits_set_get, if_pos rfl] at hset
  have hold := noticedPairs_perm inits i
  refine (hset.append_right _).trans (.trans ?_ ((hold.symm.append_left _).trans List.perm_append_comm))
  rw [List.append_assoc]
  exact List.perm_append_comm.append_left _

theorem noticedPairs_set_of_notices {inits : Vector InitRecord 8} {i : Initiator} {r : InitRecord}
    (h : r.notices = inits[i].notices) : (noticedPairs (inits.set i r)).Perm (noticedPairs inits) := by
  have hperm := noticedPairs_set inits i r
  rw [h] at hperm
  exact (List.perm_append_right_iff _).mp hperm

theorem noticedPairs_set_nil (inits : Vector InitRecord 8) (i : Initiator) {r : InitRecord} (h : r.notices = []) :
    (noticedPairs (inits.set i r)).Subperm (noticedPairs inits) := by
  have hperm := noticedPairs_set inits i r
  rw [h] at hperm
  simp only [noticePairs, List.map_nil, List.append_nil] at hperm
  exact (List.sublist_append_left _ _).subperm.trans hperm.subperm

theorem noticedPairs_appendNotice (inits : Vector InitRecord 8) (i : Initiator) (n : Notice) :
    (noticedPairs (appendNotice inits i n)).Perm ((i, n.ticket) :: noticedPairs inits) := by
  have hperm := noticedPairs_set inits i { inits[i] with notices := inits[i].notices ++ [n] }
  have hsplit : noticePairs i (inits[i].notices ++ [n]) = noticePairs i inits[i].notices ++ [(i, n.ticket)] := by
    simp [noticePairs]
  rw [hsplit, ← List.append_assoc] at hperm
  refine (List.perm_append_right_iff (noticePairs i inits[i].notices)).mp (hperm.trans ?_)
  rw [List.append_assoc, List.cons_append]
  exact ((List.perm_append_comm (l₁ := noticePairs i inits[i].notices)).append_left _).trans List.perm_middle

theorem noticedPairs_expireWaiters (expired : List Waiter) (tb : Tables) :
    (noticedPairs (expired.foldl expireWaiter tb).inits).Perm (expired.map Waiter.openPair ++ noticedPairs tb.inits) := by
  induction expired generalizing tb with
  | nil => exact .refl _
  | cons w rest ih =>
    refine (ih (expireWaiter tb w)).trans ?_
    exact ((noticedPairs_appendNotice tb.inits w.initiator _).append_left _).trans List.perm_middle

/-- The open-ticket count is a count of these pairs (R67). -/
theorem openTicketCount_eq (tb : Tables) (i : Initiator) :
    openTicketCount tb i = (openPairs tb).countP fun p => decide (p.1 = i) := by
  have hown : (noticePairs i tb.inits[i].notices).countP (fun p => decide (p.1 = i)) = tb.inits[i].notices.length := by
    rw [noticePairs, List.countP_map, List.countP_eq_length.mpr fun _ _ => by simp]
  have hothers : (((List.finRange 8).erase i).flatMap fun j => noticePairs j tb.inits[j].notices).countP
      (fun p => decide (p.1 = i)) = 0 := by
    refine List.countP_eq_zero.mpr fun p hp => ?_
    obtain ⟨j, hj, hp⟩ := List.mem_flatMap.mp hp
    obtain ⟨n, -, rfl⟩ := List.mem_map.mp hp
    simpa using ((List.nodup_finRange 8).mem_erase_iff.mp hj).1
  rw [openPairs, List.countP_append, (noticedPairs_perm tb.inits i).countP_eq, List.countP_append, hown, hothers,
    List.countP_map, openTicketCount, waiterCount]
  rfl

/-- The laws of capacity leave room among the numbers (R46, R67). -/
theorem openTickets_length_lt {tb : Tables} (h : tb.CapacityLaw) : (openTickets tb).length < 65535 := by
  have hnotices : ∀ i : Initiator, (tb.inits[i].notices.map (·.ticket)).length ≤ 8 := by
    intro i
    have := h.2 i
    unfold openTicketCount ticketCapacity at this
    rw [List.length_map]
    omega
  have hsum : ((List.finRange 8).map fun i => (tb.inits[i].notices.map (·.ticket)).length).sum ≤ 8 * 8 := by
    have hle := List.sum_le_card_nsmul ((List.finRange 8).map fun i => (tb.inits[i].notices.map (·.ticket)).length) 8
      (List.forall_mem_map.mpr fun i _ => hnotices i)
    simpa using hle
  have hqueue := h.1
  unfold queueCapacity at hqueue
  rw [openTickets, List.length_append, List.length_map, List.length_flatMap]
  omega

/-- The ticket that the counter issues is not open (R66). -/
theorem issuedTicket_not_mem {tb : Tables} (h : tb.CapacityLaw) (hc : tb.ticketCounter ≠ 0) :
    issuedTicket tb ∉ openTickets tb :=
  firstClosed_not_mem hc (openTickets_length_lt h)

theorem issuedTicket_ne_zero {tb : Tables} (hc : tb.ticketCounter ≠ 0) : issuedTicket tb ≠ 0 := by
  obtain ⟨k, -, heq, -⟩ := firstClosed_spec (openTickets tb) (openTickets tb).length tb.ticketCounter
  rw [issuedTicket, heq]
  exact (nextTicket_iterate hc k).1

/-- Settles O16: among the numbers from the counter on, one more than there are open tickets, one is closed, and the
search stops at the first. -/
theorem issuedTicketIsTheFirstClosedNumber : Obligations.IssuedTicketIsTheFirstClosedNumber := by
  unfold Obligations.IssuedTicketIsTheFirstClosedNumber
  intro tb hcap hc
  obtain ⟨k, -, heq, hpassed, -⟩ := firstClosed_spec (openTickets tb) (openTickets tb).length tb.ticketCounter
  exact ⟨issuedTicket_not_mem hcap hc, issuedTicket_ne_zero hc, k, heq, hpassed⟩

end Sys2Proof.Machine

/-! PROOF. The laws of the wait queue (R8, R46, R48, R65, R67): every edit of the tables keeps them, queuing by the ticket
that the counter issues and every other edit because it opens no ticket and lets no waiter in. -/

namespace Sys2Proof.Machine

/-! ### Upgrade tickets on records (R8) -/

/-- A record carries an upgrade ticket only while a waiter with that ticket stands on the record. -/
def Claims.Carried (claims : Claims) (queue : List Waiter) : Prop :=
  ∀ n c t, claims.get n = some c → c.upgradeTicket = some t → ∃ w ∈ queue, w.ownRecord = some n ∧ w.ticket = t

namespace Claims.Carried

variable {claims : Claims} {queue queue' : List Waiter}

theorem put (h : claims.Carried queue) {n : ClaimNo} {c : Claim}
    (hc : ∀ t, c.upgradeTicket = some t → ∃ d, claims.get n = some d ∧ d.upgradeTicket = some t) :
    (claims.put n c).Carried queue := by
  intro m d t hd ht
  rw [Claims.get_put] at hd
  split at hd
  · rename_i hm
    subst hm
    cases hd
    obtain ⟨d, hd, ht⟩ := hc t ht
    exact h m d t hd ht
  · exact h m d t hd ht

/-- A record without upgrade ticket is put. -/
theorem put_none (h : claims.Carried queue) {n : ClaimNo} {c : Claim} (hc : c.upgradeTicket = none) :
    (claims.put n c).Carried queue :=
  h.put fun t ht => by rw [hc] at ht; cases ht

theorem free (h : claims.Carried queue) (n : ClaimNo) : (claims.free n).Carried queue := by
  intro m d t hd ht
  rw [Claims.get_free] at hd
  split at hd
  · cases hd
  · exact h m d t hd ht

theorem alter (h : claims.Carried queue) (hs : claims.Sorted) {f : Claim → Option Claim}
    (hf : ∀ c c', f c = some c' → c'.upgradeTicket = c.upgradeTicket) :
    (claims.alter fun _ c => f c).Carried queue := by
  intro n c' t hc' ht
  rw [Claims.get_alter hs, Option.bind_eq_some_iff] at hc'
  obtain ⟨c, hc, hfc⟩ := hc'
  exact h n c t hc (hf c c' hfc ▸ ht)

/-- The waiters that leave the queue stand on records that carry no ticket. -/
theorem narrow (h : claims.Carried queue)
    (hq : ∀ w ∈ queue, w ∈ queue' ∨ ∀ n c, w.ownRecord = some n → claims.get n = some c → c.upgradeTicket ≠ some w.ticket) :
    claims.Carried queue' := by
  intro n c t hc ht
  obtain ⟨w, hw, hn, rfl⟩ := h n c t hc ht
  rcases hq w hw with hw | hleft
  · exact ⟨w, hw, hn, rfl⟩
  · exact absurd ht (hleft n c hn hc)

theorem setUpgradeTicket_none (h : claims.Carried queue) (v : Waiter) :
    (setUpgradeTicket claims v none).Carried queue := by
  intro n c t hc ht
  rw [setUpgradeTicket_get] at hc
  split at hc
  · obtain ⟨d, -, rfl⟩ := Option.map_eq_some_iff.mp hc
    cases ht
  · exact h n c t hc ht

end Claims.Carried

theorem disposeRecord_upgradeTicket {i : Initiator} {c c' : Claim} (h : disposeRecord i c = some c') :
    c'.upgradeTicket = c.upgradeTicket := by
  unfold disposeRecord at h
  split at h
  · split at h <;> cases h <;> rfl
  · cases h
    rfl

/-- A HELD SHARED record of the initiator that leaves becomes FREE (R77). -/
theorem disposeRecord_of_heldShared {c : Claim} (h : c.heldShared = true) : disposeRecord c.holder c = none := by
  obtain ⟨hp, hm⟩ := Claim.heldShared_iff.mp h
  simp [disposeRecord, hp, hm]

theorem issueDrain_upgradeTicket (i : Initiator) (c : Claim) : (issueDrain i c).upgradeTicket = c.upgradeTicket := by
  unfold issueDrain
  split
  · split <;> rfl
  · rfl

theorem finishDrain_upgradeTicket {i : Initiator} {c c' : Claim} (h : finishDrain i c = some c') :
    c'.upgradeTicket = c.upgradeTicket := by
  unfold finishDrain at h
  split at h
  · split at h <;> cases h <;> rfl
  · cases h
    rfl

theorem failDrain_upgradeTicket (i : Initiator) (c : Claim) : (failDrain i c).upgradeTicket = c.upgradeTicket := by
  rcases failDrain_cases i c with h | ⟨-, h⟩ <;> rw [h]

/-- What the expiry of waiters leaves of each record: one that an expired waiter named loses its ticket (R57). -/
theorem expireWaiters_claims_get (expired : List Waiter) (tb : Tables) (n : ClaimNo) :
    (expired.foldl expireWaiter tb).claims.get n = (tb.claims.get n).map fun c =>
      if ∃ v ∈ expired, v.ownRecord = some n then { c with upgradeTicket := none } else c := by
  induction expired generalizing tb with
  | nil => simp
  | cons v rest ih =>
    rw [List.foldl_cons, ih]
    have hfirst : (expireWaiter tb v).claims.get n = if v.ownRecord = some n
        then (tb.claims.get n).map fun c => { c with upgradeTicket := none } else tb.claims.get n :=
      setUpgradeTicket_get tb.claims v none n
    rw [hfirst]
    by_cases hv : v.ownRecord = some n
    · simp only [hv, List.mem_cons, exists_eq_or_imp, true_or, if_true, Option.map_map]
      refine congrArg (Option.map · _) (funext fun c => ?_)
      simp only [Function.comp]
      split <;> rfl
    · simp only [hv, List.mem_cons, exists_eq_or_imp, false_or, if_false]

theorem tickExpiry_claims_get (tb : Tables) (n : ClaimNo) :
    (tickExpiry tb).claims.get n = (tb.claims.get n).map fun c =>
      if ∃ v ∈ tb.queue.filter Waiter.expires, v.ownRecord = some n then { c with upgradeTicket := none } else c :=
  expireWaiters_claims_get _ { tb with queue := (tb.queue.filter fun w => !w.expires).map Waiter.lower } n

/-! ### The two runs (R48) -/

theorem runsLaw_iff {queue : List Waiter} :
    RunsLaw queue ↔ (queue.map Waiter.isClaim).Pairwise fun a b => a = true → b = true := by
  rw [RunsLaw, List.pairwise_map]

/-- A new waiter stands behind the UPGRADE run, and a CLAIM behind all (R48). -/
theorem RunsLaw.placeWaiter {queue : List Waiter} (h : RunsLaw queue) (v : Waiter) : RunsLaw (placeWaiter queue v) := by
  have hahead : ∀ w ∈ aheadOf queue v, v.isClaim = false → w.isClaim = false := by
    intro w hw hv
    rw [aheadOf, hv, if_neg Bool.false_ne_true] at hw
    simpa [Waiter.isUpgrade] using List.mem_takeWhile_imp hw
  have hbehind : behindOf queue v ≠ [] → ∀ w ∈ behindOf queue v, w.isClaim = true := by
    unfold behindOf
    split
    · exact fun hne => absurd rfl hne
    · intro hne w hw
      have hhead := List.head_dropWhile_not Waiter.isUpgrade hne
      have hdrop : RunsLaw (queue.dropWhile Waiter.isUpgrade) := h.sublist (List.dropWhile_sublist _)
      rw [← List.cons_head_tail hne] at hw hdrop
      rcases List.mem_cons.mp hw with rfl | hw
      · simpa [Waiter.isUpgrade] using hhead
      · exact (List.pairwise_cons.mp hdrop).1 w hw (by simpa [Waiter.isUpgrade] using hhead)
  have hclaim : ∀ w ∈ behindOf queue v, w.isClaim = true := fun w hw => hbehind (List.ne_nil_of_mem hw) w hw
  have hold : RunsLaw (aheadOf queue v ++ behindOf queue v) := by
    rw [aheadOf_append_behindOf]
    exact h
  obtain ⟨ha, hb, -⟩ := List.pairwise_append.mp hold
  refine List.pairwise_append.mpr ⟨ha, List.pairwise_cons.mpr ⟨fun w hw _ => hclaim w hw, hb⟩, fun u hu w hw huc => ?_⟩
  rcases List.mem_cons.mp hw with rfl | hw
  · by_contra hne
    rw [hahead u hu (Bool.eq_false_iff.mpr hne)] at huc
    cases huc
  · exact hclaim w hw

/-! ### Fewer waiters and fewer open tickets -/

theorem subperm_map {α β : Type} (f : α → β) {l l' : List α} (h : l.Subperm l') : (l.map f).Subperm (l'.map f) := by
  obtain ⟨k, hperm, hsub⟩ := h
  exact ⟨k.map f, hperm.map f, hsub.map f⟩

theorem Tables.WaitLaw.carried {tb : Tables} (h : tb.WaitLaw) : tb.claims.Carried tb.queue :=
  h.upgrades.2

/-- An edit that lets no waiter in and opens no ticket keeps the laws, when the UPGRADE waiters left keep their
records. -/
theorem Tables.WaitLaw.fewer {tb tb' : Tables} (h : tb.WaitLaw) (hnamed : NamedLaws tb'.claims tb'.queue)
    (hcarried : tb'.claims.Carried tb'.queue) (hkinds : (tb'.queue.map Waiter.isClaim).Sublist (tb.queue.map Waiter.isClaim))
    (hopen : (openPairs tb').Subperm (openPairs tb)) (hcounter : tb'.ticketCounter = tb.ticketCounter) :
    tb'.WaitLaw where
  sorted := hnamed.sorted
  capacity := by
    refine ⟨?_, fun i => ?_⟩
    · have hlen := hkinds.length_le
      rw [List.length_map, List.length_map] at hlen
      exact hlen.trans h.capacity.1
    · rw [openTicketCount_eq]
      exact (hopen.countP_le _).trans (openTicketCount_eq tb i ▸ h.capacity.2 i)
  runs := runsLaw_iff.mpr ((runsLaw_iff.mp h.runs).sublist hkinds)
  tickets := by
    have hsub : (openTickets tb').Subperm (openTickets tb) := by
      rw [openTickets_eq, openTickets_eq]
      exact subperm_map _ hopen
    obtain ⟨hnodup, hzero, hc⟩ := h.tickets
    obtain ⟨l, hperm, hl⟩ := hsub
    exact ⟨hperm.nodup_iff.mp (hnodup.sublist hl), fun h0 => hzero (hl.subset (hperm.mem_iff.mpr h0)), hcounter ▸ hc⟩
  upgrades := ⟨hnamed.named, hcarried⟩

/-- The same of an edit that changes records alone. -/
theorem Tables.WaitLaw.records {tb tb' : Tables} (h : tb.WaitLaw) (hnamed : NamedLaws tb'.claims tb.queue)
    (hcarried : tb'.claims.Carried tb.queue) (hqueue : tb'.queue = tb.queue) (hinits : tb'.inits = tb.inits)
    (hcounter : tb'.ticketCounter = tb.ticketCounter) : tb'.WaitLaw := by
  refine h.fewer (hqueue ▸ hnamed) (hqueue ▸ hcarried) (by rw [hqueue]) ?_ hcounter
  rw [openPairs, hqueue, hinits]
  exact .refl _

/-- The same of an edit that changes the initiator table alone, and opens no ticket there. -/
theorem Tables.WaitLaw.initiators {tb : Tables} (h : tb.WaitLaw) {inits : Vector InitRecord 8}
    (hopen : (noticedPairs inits).Subperm (noticedPairs tb.inits)) : Tables.WaitLaw { tb with inits := inits } :=
  h.fewer (tb' := { tb with inits := inits }) h.namedLaws h.carried (.refl _)
    ((List.subperm_append_left _).mpr hopen) rfl

/-- Distinct waiters have distinct tickets (R65). -/
theorem Tables.WaitLaw.eq_of_ticket {tb : Tables} (h : tb.WaitLaw) {v w : Waiter} (hv : v ∈ tb.queue)
    (hw : w ∈ tb.queue) (ht : v.ticket = w.ticket) : v = w :=
  List.inj_on_of_nodup_map (List.nodup_append.mp h.tickets.1).1 hv hw ht

/-! ### The edits -/

section Edits

variable {tb : Tables} (h : tb.WaitLaw)

include h

/-- A record that no waiter stands on is changed, its ticket kept. -/
theorem Tables.WaitLaw.change {n : ClaimNo} {c c' : Claim} (hg : tb.claims.get n = some c)
    (hc : c.heldShared = false) (hl : c.LoosensTo c') (ht : c'.upgradeTicket = c.upgradeTicket)
    (fenceQueue : List Initiator) :
    Tables.WaitLaw { tb with claims := tb.claims.put n c', fenceQueue := fenceQueue } :=
  h.records (tb' := { tb with claims := tb.claims.put n c', fenceQueue := fenceQueue })
    (h.namedLaws.loosened (.put h.sorted hg hc hl))
    (h.carried.put fun _ hc' => ⟨c, hg, ht ▸ hc'⟩) rfl rfl rfl

theorem Tables.WaitLaw.alterDrains {f : Claim → Option Claim} (hf : ∀ c c', f c = some c' → c.LoosensTo c')
    (hheld : ∀ c, c.phase = .held → f c = some c)
    (ht : ∀ c c', f c = some c' → c'.upgradeTicket = c.upgradeTicket) (fenceQueue : List Initiator) :
    Tables.WaitLaw { tb with claims := tb.claims.alter fun _ c => f c, fenceQueue := fenceQueue } :=
  h.records (tb' := { tb with claims := tb.claims.alter fun _ c => f c, fenceQueue := fenceQueue })
    (h.namedLaws.loosened (.alterDrains h.sorted hf hheld)) (h.carried.alter h.sorted ht) rfl rfl rfl

theorem Tables.WaitLaw.claimed {n : ClaimNo} {c : Claim} (hn : tb.claims.lowestFree = some n)
    (hc : c.upgradeTicket = none) : Tables.WaitLaw { tb with claims := tb.claims.put n c } := by
  refine h.records (tb' := { tb with claims := tb.claims.put n c })
    ⟨Claims.sorted_put h.sorted n c, fun w hw m hm => ?_, h.namedLaws.apart⟩ (h.carried.put_none hc) rfl rfl rfl
  obtain ⟨d, hd, hrest⟩ := h.upgrades.1 w hw m hm
  have hmn : m ≠ n := by
    rintro rfl
    rw [(Claims.lowestFree_eq_some.mp hn).1] at hd
    cases hd
  exact ⟨d, by rw [Claims.get_put, if_neg hmn, hd], hrest⟩

theorem Tables.WaitLaw.upgraded {n : ClaimNo} {c : Claim} (hg : tb.claims.get n = some c)
    (ht : c.upgradeTicket = none) :
    Tables.WaitLaw { tb with claims := tb.claims.put n { c with mode := .exclusive, upgradeTicket := none } } := by
  refine h.records (tb' := { tb with claims := tb.claims.put n { c with mode := .exclusive, upgradeTicket := none } })
    ⟨Claims.sorted_put h.sorted n _, fun w hw m hm => ?_, h.namedLaws.apart⟩ (h.carried.put_none rfl) rfl rfl rfl
  obtain ⟨d, hd, hrest⟩ := h.upgrades.1 w hw m hm
  have hmn : m ≠ n := by
    rintro rfl
    exact h.namedLaws.not_named_of_no_ticket hg ht w hw hm
  exact ⟨d, by rw [Claims.get_put, if_neg hmn, hd], hrest⟩

/-- The waiter joins under a ticket that was closed (R34, R37, R66). -/
theorem Tables.WaitLaw.queued {v : Waiter} (hticket : v.ticket = issuedTicket tb) (hname : v.MayName tb.claims)
    (hplace : placementRefusal tb v = none) : (queueWaiter tb v).WaitLaw := by
  obtain ⟨hroom, htickets, -⟩ := placementRefusal_eq_none.mp hplace
  have hnamed := h.namedLaws.queued hname
  have hperm := placeWaiter_perm tb.queue v
  have hopen : (openPairs (queueWaiter tb v)).Perm (v.openPair :: openPairs tb) :=
    (hperm.map Waiter.openPair).append_right _
  have hclosed : v.ticket ∉ openTickets tb := hticket ▸ issuedTicket_not_mem h.capacity h.tickets.2.2
  have hpos : v.ticket ≠ 0 := hticket ▸ issuedTicket_ne_zero h.tickets.2.2
  have hopened : (openTickets (queueWaiter tb v)).Perm (v.ticket :: openTickets tb) := by
    rw [openTickets_eq, openTickets_eq]
    exact hopen.map _
  refine ⟨hnamed.sorted, ⟨?_, fun i => ?_⟩, h.runs.placeWaiter v, ⟨?_, ?_, nextTicket_ne_zero hpos⟩,
    hnamed.named, fun n c t hc ht => ?_⟩
  · have hlen := hperm.length_eq
    rw [List.length_cons] at hlen
    change (placeWaiter tb.queue v).length ≤ _
    omega
  · rw [openTicketCount_eq, hopen.countP_eq, List.countP_cons, ← openTicketCount_eq]
    split
    · rename_i hi
      have hi : v.initiator = i := of_decide_eq_true hi
      rw [hi] at htickets
      omega
    · exact h.capacity.2 i
  · exact hopened.nodup_iff.mpr (List.nodup_cons.mpr ⟨hclosed, h.tickets.1⟩)
  · intro h0
    rcases List.mem_cons.mp (hopened.mem_iff.mp h0) with h0 | h0
    · exact hpos h0.symm
    · exact h.tickets.2.1 h0
  · change (setUpgradeTicket tb.claims v (some v.ticket)).get n = some c at hc
    rw [setUpgradeTicket_get] at hc
    split at hc
    · rename_i hn
      obtain ⟨d, -, rfl⟩ := Option.map_eq_some_iff.mp hc
      exact ⟨v, hperm.mem_iff.mpr List.mem_cons_self, hn, Option.some.inj ht⟩
    · obtain ⟨w, hw, hwn, hwt⟩ := h.carried n c t hc ht
      exact ⟨w, hperm.mem_iff.mpr (List.mem_cons_of_mem v hw), hwn, hwt⟩

/-- The waiter of a released record leaves with it, and its ticket goes over to a notice (R40). -/
theorem Tables.WaitLaw.released {n : ClaimNo} {c : Claim} (hg : tb.claims.get n = some c) :
    (withdrawWaiter { tb with claims := tb.claims.free n } c.holder c.tag c.upgradeTicket).WaitLaw := by
  cases ht : c.upgradeTicket with
  | none =>
    exact h.records (tb' := { tb with claims := tb.claims.free n })
      (h.namedLaws.loosened (.free h.sorted (.refl _) (h.namedLaws.not_named_of_no_ticket hg ht)))
      (h.carried.free n) rfl rfl rfl
  | some t =>
    obtain ⟨w, hw, hwn, rfl⟩ := h.carried n c t hg ht
    obtain ⟨d, hd, -, hholder, -⟩ := h.upgrades.1 w hw n hwn
    obtain rfl : c = d := Option.some.inj (hg.symm.trans hd)
    have hstay : ∀ v ∈ tb.queue, v ≠ w → v ∈ tb.queue.filter fun v => !decide (v.ticket = w.ticket) := by
      intro v hv hne
      exact List.mem_filter.mpr ⟨hv, by simpa using fun hvt => hne (h.eq_of_ticket hv hw hvt)⟩
    refine h.fewer (h.namedLaws.loosened (.free h.sorted List.filter_sublist fun v hv hvn => ?_))
      (.narrow (h.carried.free n) fun v hv => ?_) (List.filter_sublist.map _) ?_ rfl
    · obtain ⟨hv, hvt⟩ := List.mem_filter.mp hv
      have := h.namedLaws.ticket_of_named hg hv hvn
      rw [ht] at this
      simp [Option.some.inj this] at hvt
    · by_cases hvw : v = w
      · subst hvw
        refine .inr fun m d hm hd => ?_
        obtain rfl : n = m := Option.some.inj (hwn.symm.trans hm)
        change (tb.claims.free n).get n = some d at hd
        rw [Claims.get_free, if_pos rfl] at hd
        cases hd
      · exact .inl (hstay v hv hvw)
    · have hnotice : (noticedPairs (appendNotice tb.inits c.holder ⟨w.ticket, .withdrawn, c.tag⟩)).Perm
          (w.openPair :: noticedPairs tb.inits) := hholder ▸ noticedPairs_appendNotice tb.inits c.holder _
      have hsplit := List.filter_append_perm (fun v => !decide (v.ticket = w.ticket)) tb.queue
      have hone : [w].Subperm (tb.queue.filter fun v => !!decide (v.ticket = w.ticket)) :=
        (List.singleton_sublist.mpr (List.mem_filter.mpr ⟨hw, by simp⟩)).subperm
      have hqueue : ((tb.queue.filter fun v => !decide (v.ticket = w.ticket)) ++ [w]).Subperm tb.queue :=
        ((List.subperm_append_left _).mpr hone).trans hsplit.subperm
      refine ((hnotice.append_left _).trans ?_).subperm.trans ((List.subperm_append_right _).mpr (subperm_map _ hqueue))
      rw [List.map_append, List.append_assoc]
      exact .refl _

/-- A waiter leaves, and its record loses the ticket (R59). -/
theorem Tables.WaitLaw.cancelled {v : Waiter} (hv : v ∈ tb.queue) :
    Tables.WaitLaw { tb with
      claims := setUpgradeTicket tb.claims v none
      queue := tb.queue.filter fun x => !decide (x.ticket = v.ticket) } := by
  have hne : ∀ w ∈ tb.queue.filter fun x => !decide (x.ticket = v.ticket), v.Apart w := by
    intro w hw
    obtain ⟨hw, hwt⟩ := List.mem_filter.mp hw
    exact h.namedLaws.apart_of_ne hv hw (by rintro rfl; simp at hwt)
  refine h.fewer (tb' := { tb with
      claims := setUpgradeTicket tb.claims v none
      queue := tb.queue.filter fun x => !decide (x.ticket = v.ticket) })
    (h.namedLaws.loosened (.setUpgradeTicket h.sorted none List.filter_sublist hne))
    (.narrow (h.carried.setUpgradeTicket_none v) fun w hw => ?_) (List.filter_sublist.map _)
    ((List.subperm_append_right _).mpr (List.filter_sublist.map _).subperm) rfl
  by_cases hwt : w.ticket = v.ticket
  · obtain rfl : w = v := h.eq_of_ticket hw hv hwt
    refine .inr fun n c hn hc ht => ?_
    rw [setUpgradeTicket_get, if_pos hn] at hc
    obtain ⟨d, -, rfl⟩ := Option.map_eq_some_iff.mp hc
    cases ht
  · exact .inl (List.mem_filter.mpr ⟨hw, by simpa using hwt⟩)

/-- An initiator leaves with its waiters, its notices and the HELD SHARED records that its waiters name (R77, R81). -/
theorem Tables.WaitLaw.left (i : Initiator) (st : InitState) : (leaveActive tb i st).WaitLaw := by
  refine h.fewer (h.namedLaws.loosened (leaveActive_loosened h.sorted i st))
    (.narrow (h.carried.alter h.sorted fun _ _ => disposeRecord_upgradeTicket) fun w hw => ?_)
    (List.filter_sublist.map _) ?_ rfl
  · by_cases hi : w.initiator = i
    · refine .inr fun n c hn hc ht => ?_
      obtain ⟨d, hd, hheld, hholder, -⟩ := h.upgrades.1 w hw n hn
      change (tb.claims.alter fun _ c => disposeRecord i c).get n = some c at hc
      rw [Claims.get_alter h.sorted, hd, Option.bind_some, ← hi, ← hholder, disposeRecord_of_heldShared hheld] at hc
      cases hc
    · exact .inl (List.mem_filter.mpr ⟨hw, by simpa using hi⟩)
  · exact ((List.filter_sublist.map _).subperm).append (noticedPairs_set_nil tb.inits i rfl)

/-- The waiters that expire leave for notices under their tickets (R57). -/
theorem Tables.WaitLaw.expired : (tickExpiry tb).WaitLaw := by
  refine h.fewer ((h.namedLaws.lower).loosened (tickExpiry_loosened h.namedLaws)) (fun n c t hc ht => ?_) ?_ ?_
    (tickExpiry_ticketCounter tb)
  · rw [tickExpiry_claims_get] at hc
    obtain ⟨d, hd, rfl⟩ := Option.map_eq_some_iff.mp hc
    split at ht
    · cases ht
    · rename_i hnone
      obtain ⟨w, hw, hn, rfl⟩ := h.carried n d t hd ht
      have hstays : w.expires = false := Bool.eq_false_iff.mpr fun he => hnone ⟨w, List.mem_filter.mpr ⟨hw, he⟩, hn⟩
      rw [tickExpiry_queue]
      exact ⟨w.lower, List.mem_map.mpr ⟨w, List.mem_filter.mpr ⟨hw, by simp [hstays]⟩, rfl⟩, hn, rfl⟩
  · rw [tickExpiry_queue, List.map_map]
    exact List.filter_sublist.map _
  · have hsplit : ((tb.queue.filter fun w => !w.expires) ++ tb.queue.filter Waiter.expires).Perm tb.queue := by
      simpa using List.filter_append_perm (fun w => !w.expires) tb.queue
    have hnotices := noticedPairs_expireWaiters (tb.queue.filter Waiter.expires)
      { tb with queue := (tb.queue.filter fun w => !w.expires).map Waiter.lower }
    have hlower : (tickExpiry tb).queue.map Waiter.openPair
        = (tb.queue.filter fun w => !w.expires).map Waiter.openPair := by
      rw [tickExpiry_queue, List.map_map]
      rfl
    rw [openPairs, hlower]
    refine ((hnotices.append_left _).trans ?_).subperm
    rw [← List.append_assoc, ← List.map_append]
    exact (hsplit.map _).append_right _

/-- A granted waiter leaves for a notice under its ticket (R52). -/
theorem Tables.WaitLaw.granted {before after : List Waiter} {w : Waiter} {n : ClaimNo} {c : Claim}
    (hq : tb.queue = before ++ w :: after) (hg : grantedRecord tb.claims w = some (n, c)) :
    Tables.WaitLaw { grantWaiter tb w n c with queue := before ++ after } := by
  have hsub : (before ++ after).Sublist tb.queue := by
    rw [hq]
    exact (List.sublist_cons_self w after).append_left before
  have hnamed : NamedLaws tb.claims (before ++ w :: after) := hq ▸ h.namedLaws
  have hc : c.upgradeTicket = none := by
    rcases grantedRecord_eq_some.mp hg with ⟨_, -, -, rfl⟩ | ⟨-, _, -, rfl⟩ <;> rfl
  refine h.fewer (hnamed.leave.granted hg hnamed.apart_middle)
    (.narrow (h.carried.put_none hc) fun u hu => ?_) (hsub.map _) ?_ rfl
  · rw [hq] at hu
    by_cases huw : u = w
    · subst huw
      refine .inr fun m d hm hd ht => ?_
      rcases grantedRecord_eq_some.mp hg with ⟨mode, hk, -, -⟩ | ⟨hk, -, -, -⟩
      · simp [Waiter.ownRecord, hk] at hm
      · obtain rfl : n = m := by simpa [Waiter.ownRecord, hk] using hm
        rw [grantWaiter, Claims.get_put, if_pos rfl] at hd
        obtain rfl : c = d := Option.some.inj hd
        rw [hc] at ht
        cases ht
    · simp only [List.mem_append, List.mem_cons, huw, false_or] at hu
      exact .inl (List.mem_append.mpr hu)
  · have hnotice := noticedPairs_appendNotice tb.inits w.initiator ⟨w.ticket, .granted n, c.tag⟩
    refine (List.Perm.subperm ?_)
    rw [openPairs, openPairs, hq, List.map_append, List.map_append, List.map_cons]
    refine (hnotice.append_left _).trans ?_
    rw [List.append_assoc, List.append_assoc]
    exact List.perm_middle.append_left _

end Edits

/-! ### Every event -/

/-- Every edit of the engine keeps the laws of the wait queue. -/
theorem Tables.WaitLaw.edit {cfg : ConfigRegs} {tb tb' : Tables} (he : EngineEdit cfg tb tb') (h : tb.WaitLaw) :
    tb'.WaitLaw := by
  cases he with
  | lease i old new _ _ =>
    exact h.initiators (noticedPairs_set_of_notices (r := { tb.inits[i] with state := .active new }) rfl).subperm
  | registered i g _ =>
    exact h.initiators (noticedPairs_set_of_notices
      (r := { tb.inits[i] with state := .active cfg.leaseLength, generation := g }) rfl).subperm
  | claimed i mode w n _ _ hn => exact h.claimed hn rfl
  | upgraded n c hg _ ht => exact h.upgraded hg ht
  | queued v limit _ _ hticket hname _ _ _ hplace => exact h.queued hticket hname hplace
  | drained n c phase mode hg hheld hmode hphase =>
    have hnot : c.heldShared = false := by simp [Claim.heldShared, hmode]
    refine h.change (c' := { c with phase := phase, mode := mode }) hg hnot
      ⟨rfl, rfl, fun _ => by simp [Claim.live, hheld], fun hs => ?_⟩ rfl _
    rw [hnot] at hs
    cases hs
  | redrained n c stage hg hphase =>
    have hnot : c.heldShared = false := by simp [Claim.heldShared, hphase]
    refine h.change (c' := { c with phase := .drainingOut stage }) hg hnot
      ⟨rfl, rfl, fun hl => absurd hl Bool.false_ne_true, fun hs => ?_⟩ rfl _
    rw [hnot] at hs
    cases hs
  | released n c hg _ _ => exact h.released hg
  | cleared n c hg hq =>
    have hnot : c.heldShared = false := by simp [Claim.heldShared, hq]
    exact h.records (tb' := { tb with claims := tb.claims.free n })
      (h.namedLaws.loosened (.free h.sorted (.refl _) (h.namedLaws.not_named_of_not_heldShared hg hnot)))
      (h.carried.free n) rfl rfl rfl
  | cancelled v hv => exact h.cancelled hv
  | noticeTaken i n rest hn =>
    refine h.initiators ?_
    have hperm := noticedPairs_set tb.inits i { tb.inits[i] with notices := rest }
    have hfewer : (noticePairs i rest).Subperm (noticePairs i tb.inits[i].notices) := by
      rw [hn]
      exact ((List.sublist_cons_self n rest).map _).subperm
    exact (List.subperm_append_right _).mp (hperm.subperm.trans ((List.subperm_append_left _).mpr hfewer))
  | left i st _ _ => exact h.left i st
  | expired => exact h.expired
  | granted before after w n c hq hg => exact h.granted hq hg

theorem Tables.WaitLaw.fence {tb tb' : Tables} {i : Initiator} (hf : FenceEdit tb i tb') (h : tb.WaitLaw) :
    tb'.WaitLaw := by
  cases hf with
  | issued rest _ =>
    exact h.alterDrains (f := fun c => some (issueDrain i c)) (fun c _ hc => Option.some.inj hc ▸ issueDrain_loosens i c)
      (fun _ hc => congrArg some (issueDrain_of_held hc))
      (fun c _ hc => Option.some.inj hc ▸ issueDrain_upgradeTicket i c) rest
  | done =>
    exact h.alterDrains (finishDrain_loosens i) (fun _ => finishDrain_of_held)
      (fun _ _ => finishDrain_upgradeTicket) tb.fenceQueue
  | failed =>
    exact h.alterDrains (f := fun c => some (failDrain i c)) (fun c _ hc => Option.some.inj hc ▸ failDrain_loosens i c)
      (fun _ hc => congrArg some (failDrain_of_held hc))
      (fun c _ hc => Option.some.inj hc ▸ failDrain_upgradeTicket i c) tb.fenceQueue

/-- Empty tables have no waiter and no open ticket. -/
theorem Tables.WaitLaw.empty {tb : Tables} (h : tb.Empty) (hc : tb.ticketCounter ≠ 0) : tb.WaitLaw := by
  have hnotices : noticedPairs tb.inits = [] :=
    List.flatMap_eq_nil_iff.mpr fun i _ => by rw [(h.inits i).1]; rfl
  have hopen : openPairs tb = [] := by rw [openPairs, h.queue, hnotices]; rfl
  have hopened : openTickets tb = [] := by rw [openTickets_eq, hopen]; rfl
  refine ⟨h.claims ▸ .nil, ⟨?_, fun i => ?_⟩, ?_, ?_, ?_, ?_⟩
  · rw [h.queue]
    exact Nat.zero_le _
  · rw [openTicketCount_eq, hopen]
    exact Nat.zero_le _
  · rw [h.queue]
    exact .nil
  · rw [Tables.TicketLaw, hopened]
    exact ⟨.nil, nofun, hc⟩
  · rw [h.queue]
    exact nofun
  · rw [h.claims]
    exact nofun

/-- Settles O54: by the edits that each event is a row of. -/
theorem stepKeepsTheWaitQueueLaws : Obligations.StepKeepsTheWaitQueueLaws := by
  unfold Obligations.StepKeepsTheWaitQueueLaws
  intro s t h hstep
  have hevent : ∀ s tb, TablesStep s tb → s.tables.WaitLaw → tb.WaitLaw := fun s tb hs h =>
    hs.preserve (fun _ _ he h => h.edit he) (fun _ _ _ hf h => h.fence hf)
      (fun h => .empty (teardownTables_empty _) h.tickets.2.2)
      (fun present => .empty (resetTables_empty present) (by change (1 : BitVec 16) ≠ 0; decide)) h
  exact step_keeps (P := fun s => s.tables.WaitLaw) (fun _ _ h => h) (fun s _ he h => hevent s _ he.tables h)
    (fun _ s _ he h => hevent s _ he.tablesStep h) h hstep

end Sys2Proof.Machine

/-! PROOF. Requests at their take: what an initiator request and a management request leave when their judge's answer is
known, said once for every kind; the gate, the requests of an undefined kind, the lease restart and REGISTER (R20, R21,
R73 to R75, R152); and the commands that are not due (log entry 4). -/

namespace Sys2Proof.Machine

/-! ### A request whose judge's answer is known -/

/-- A request of an ACTIVE initiator completes with the answer of its judge. -/
theorem exec_of_judged {c : Instr} {k : RequestKind} {judge : InitiatorJudge} (harm : (c, k, judge) ∈ initiatorArms)
    {s : State} {i : Initiator} {w : RequestWords} (h : s.TakesActive i k w) {tb : Tables} {r : Reply}
    (hj : judge s.config i w (s.renewed i) = (tb, r)) :
    ∃ t, exec c s = .next t ∧ t.tables = tb ∧ CompletedInitiator { s with tables := t.tables } t i r := by
  have hdone := takeInitiator_completed_of_active judge h
  have htables : (takeInitiator k judge s).tables = tb := by
    rw [takeInitiator_of_active h, State.complete_tables, hj]
  rw [hj] at hdone
  refine ⟨_, exec_of_initiatorArm harm s, htables, ?_⟩
  rw [htables]
  exact hdone

/-- A request of an ACTIVE initiator that changes nothing but the lease. -/
theorem exec_of_unchanged {c : Instr} {k : RequestKind} {judge : InitiatorJudge} (harm : (c, k, judge) ∈ initiatorArms)
    {s : State} {i : Initiator} {w : RequestWords} (h : s.TakesActive i k w) {r : Reply}
    (hj : judge s.config i w (s.renewed i) = (s.renewed i, r)) :
    ∃ t, exec c s = .next t ∧ CompletedInitiator { s with tables := s.renewed i } t i r := by
  obtain ⟨t, hexec, htables, hdone⟩ := exec_of_judged harm h hj
  exact ⟨t, hexec, htables ▸ hdone⟩

/-- A management request completes with the answer of its judge. -/
theorem exec_of_managed {c : Instr} {k : RequestKind} {judge : ManagementJudge} (harm : (c, k, judge) ∈ managementArms)
    {s : State} {w : RequestWords} (h : s.Takes .management k w) {u : State} {r : Reply} (hj : judge w s = (u, r)) :
    ∃ t, exec c s = .next t ∧ t.tables = u.tables ∧ CompletedManagement u t r := by
  refine ⟨_, exec_of_managementArm harm s, ?_, ?_⟩ <;> rw [takeManagement_of_takes h, hj]
  · exact State.complete_tables u .management r
  · exact completedManagement_complete u r

theorem State.renewed_get_self (s : State) (i : Initiator) :
    (s.renewed i).inits[i] = { s.tables.inits[i] with state := .active s.config.leaseLength } := by
  rw [State.renewed_get, if_pos rfl]

/-! ### The gate (R20) -/

/-- Settles O6: the gate decides before the request's own judge, whatever the kind. -/
theorem gateRefusesInitiatorRequests : Obligations.GateRefusesInitiatorRequests := by
  unfold Obligations.GateRefusesInitiatorRequests
  intro s i w k c o hc htakes hrefused
  obtain ⟨judge, harm⟩ := exists_initiatorArm hc
  exact ⟨_, exec_of_initiatorArm harm s, takeInitiator_completed_of_refusal judge htakes hrefused⟩

/-! ### Requests of an undefined kind (R152) -/

theorem initiatorKind_eq_undefined {n : Nat} : initiatorKind n = .undefined ↔ n = 0 ∨ 10 < n := by
  rcases Nat.lt_or_ge n 11 with h | h
  · interval_cases n <;> simp [initiatorKind]
  · obtain ⟨m, rfl⟩ := Nat.exists_eq_add_of_le' h
    simp [initiatorKind]

theorem managementKind_eq_undefined {n : Nat} : managementKind n = .undefined ↔ n = 0 ∨ 9 < n := by
  rcases Nat.lt_or_ge n 10 with h | h
  · interval_cases n <;> simp [managementKind]
  · obtain ⟨m, rfl⟩ := Nat.exists_eq_add_of_le' h
    simp [managementKind]

theorem requestKind_initiator_eq_undefined {i : Initiator} {w1 : Word} :
    requestKind (.initiator i) w1 = .undefined ↔ bitField 4 1 w1 = 1 ∨ bitField 0 4 w1 = 0 ∨ 10 < bitField 0 4 w1 := by
  have hclass : bitField 4 1 w1 < 2 := bitField_lt 4 1 w1
  rcases (by omega : bitField 4 1 w1 = 0 ∨ bitField 4 1 w1 = 1) with h | h
  · simp [requestKind, h, initiatorKind_eq_undefined]
  · simp [requestKind, h]

theorem requestKind_management_eq_undefined {w1 : Word} :
    requestKind .management w1 = .undefined ↔ bitField 4 1 w1 = 0 ∨ bitField 0 4 w1 = 0 ∨ 9 < bitField 0 4 w1 := by
  have hclass : bitField 4 1 w1 < 2 := bitField_lt 4 1 w1
  rcases (by omega : bitField 4 1 w1 = 0 ∨ bitField 4 1 w1 = 1) with h | h
  · simp [requestKind, h]
  · simp [requestKind, h, managementKind_eq_undefined]

/-- Settles O7: the completions of the two mailboxes, and the codes of each class. -/
theorem undefinedKindIsBadRequest : Obligations.UndefinedKindIsBadRequest := by
  unfold Obligations.UndefinedKindIsBadRequest
  refine ⟨fun s i w h => ⟨_, exec_undefinedRequestKind s, ?_⟩, fun s w h => ⟨_, exec_undefinedRequestKind s, ?_⟩,
    fun _ _ => requestKind_initiator_eq_undefined, fun _ => requestKind_management_eq_undefined⟩
  · rw [takeUndefined_of_takes_initiator h]
    exact completedInitiator_complete _ i _
  · rw [takeUndefined_of_takes_management h]
    exact completedManagement_complete s _

/-! ### The lease restart (R21) -/

/-- Each initiator has the state it had. -/
def SameStates (inits inits' : Vector InitRecord 8) : Prop :=
  ∀ j : Initiator, inits'[j].state = inits[j].state

theorem SameStates.grantPass (tb : Tables) : SameStates tb.inits (grantPass tb).inits :=
  grantPass_state tb

theorem SameStates.appendNotice (inits : Vector InitRecord 8) (i : Initiator) (n : Notice) :
    SameStates inits (appendNotice inits i n) := by
  intro j
  rw [appendNotice_get]
  split
  · rename_i h
    subst h
    rfl
  · rfl

/-- Past the gate no request of an ACTIVE initiator but UNREGISTER changes the state of an initiator. -/
theorem SameStates.judged {c : Instr} {k : RequestKind} {judge : InitiatorJudge} (harm : (c, k, judge) ∈ initiatorArms)
    (hk : k ≠ .unregister) {tb : Tables} {i : Initiator} (ha : tb.inits[i].state.isActive = true) (cfg : ConfigRegs)
    (w : RequestWords) : SameStates tb.inits (judge cfg i w tb).1.inits := by
  rcases mem_initiatorArms.mp harm with ⟨-, -, rfl⟩ | ⟨-, rfl, -⟩ | ⟨-, -, rfl⟩ | ⟨-, -, rfl⟩ | ⟨-, -, rfl⟩
    | ⟨-, -, rfl⟩ | ⟨-, -, rfl⟩ | ⟨-, -, rfl⟩ | ⟨-, -, rfl⟩ | ⟨-, -, rfl⟩
  · rcases judgeRegister_cases cfg i w tb with ⟨-, ht⟩ | ⟨hna, -⟩
    · rw [ht]
      exact fun _ => rfl
    · rw [ha] at hna
      cases hna
  · exact absurd rfl hk
  · exact fun _ => rfl
  · rcases judgeClaim_cases cfg i w tb with
      ht | ⟨mode, -, -, -, -, ⟨n, -, -, ht⟩ | ⟨-, -, -, ht⟩⟩ <;> rw [ht] <;> exact fun _ => rfl
  · rcases judgeUpgrade_cases cfg i w tb with
      ht | ⟨n, e, -, -, ⟨-, -, ht⟩ | ⟨-, -, -, ht⟩⟩ <;> rw [ht] <;> exact fun _ => rfl
  · rcases judgeDowngrade_cases cfg i w tb with ht | ⟨n, e, -, ht⟩ <;> rw [ht] <;> exact fun _ => rfl
  · rcases judgeRelease_cases cfg i w tb with
      ht | ⟨n, e, -, ht⟩ | ⟨n, e, -, ht⟩ | ⟨n, e, stage, -, ht⟩ <;> rw [ht]
    · exact fun _ => rfl
    · intro j
      rw [releaseShared, SameStates.grantPass _ j]
      cases e.upgradeTicket with
      | none => rfl
      | some t => exact SameStates.appendNotice tb.inits i _ j
    · exact fun _ => rfl
    · exact fun _ => rfl
  · rcases judgeCancel_cases cfg i w tb with ht | ⟨v, -, -, -, ht⟩ <;> rw [ht]
    · exact fun _ => rfl
    · exact fun j => SameStates.grantPass _ j
  · rcases judgeTakeNotice_cases cfg i w tb with ht | ⟨n, rest, -, ht⟩ <;> rw [ht]
    · exact fun _ => rfl
    · intro j
      dsimp only
      rw [inits_set_get]
      split
      · rename_i h
        subst h
        rfl
      · rfl
  · rw [judgeLookup_tables]
    exact fun _ => rfl

/-- UNREGISTER changes the state of its requester alone. -/
theorem judgeUnregister_state (cfg : ConfigRegs) (i : Initiator) (w : RequestWords) (tb : Tables) {j : Initiator}
    (hj : j ≠ i) : (judgeUnregister cfg i w tb).1.inits[j].state = tb.inits[j].state := by
  have hleft : (leaveActive tb i .unregistered).inits[j].state = tb.inits[j].state := by
    rw [leaveActive, inits_set_get, if_neg hj]
  rw [judgeUnregister_tables]
  cases hasStake tb i with
  | true => exact (SameStates.grantPass _ j).trans hleft
  | false => exact hleft

/-- Settles O8: the lease is restarted before the judge, and no judge but that of UNREGISTER moves a state. -/
theorem everyRequestRestartsTheLease : Obligations.EveryRequestRestartsTheLease := by
  unfold Obligations.EveryRequestRestartsTheLease
  intro s i w k c hc h
  obtain ⟨judge, harm⟩ := exists_initiatorArm hc
  obtain ⟨t, hexec, htables, -⟩ := exec_of_judged harm h rfl
  have hactive : (s.renewed i).inits[i].state.isActive = true := by
    rw [State.renewed_get_self]
    rfl
  refine ⟨t, hexec, fun hk => ?_, fun j hj => ?_⟩ <;> rw [htables]
  · rw [SameStates.judged harm hk hactive, State.renewed_get_self]
  · have hother : (s.renewed i).inits[j].state = s.tables.inits[j].state := by
      rw [State.renewed_get, if_neg hj]
    rw [← hother]
    by_cases hk : k = .unregister
    · rcases mem_initiatorArms.mp harm with ⟨-, rfl, -⟩ | ⟨-, rfl, rfl⟩ | ⟨-, rfl, -⟩ | ⟨-, rfl, -⟩ | ⟨-, rfl, -⟩
        | ⟨-, rfl, -⟩ | ⟨-, rfl, -⟩ | ⟨-, rfl, -⟩ | ⟨-, rfl, -⟩ | ⟨-, rfl, -⟩ <;> cases hk
      exact judgeUnregister_state _ i w _ hj
    · exact SameStates.judged harm hk hactive _ w j

/-! ### REGISTER (R73 to R75) -/

theorem registerArm : (Instr.register, RequestKind.register, judgeRegister) ∈ initiatorArms := by
  simp [initiatorArms]

theorem judgeRegister_of_active {cfg : ConfigRegs} {i : Initiator} {w : RequestWords} {tb : Tables}
    (ha : tb.inits[i].state.isActive = true) :
    judgeRegister cfg i w tb = (tb, .plain .already (tb.inits[i].generation.setWidth 16)) := by
  unfold judgeRegister
  split
  · rfl
  all_goals (rename_i h; rw [h] at ha; cases ha)

theorem judgeRegister_of_not_active {cfg : ConfigRegs} {i : Initiator} {w : RequestWords} {tb : Tables}
    (ha : tb.inits[i].state.isActive = false) :
    judgeRegister cfg i w tb = ({ tb with inits := tb.inits.set i { tb.inits[i] with
        state := .active cfg.leaseLength
        generation := nextGeneration tb.inits[i].generation } },
      .plain .done ((nextGeneration tb.inits[i].generation).setWidth 16)) := by
  unfold judgeRegister
  split
  · rename_i h
    rw [h] at ha
    cases ha
  all_goals rfl

/-- Settles O10: REGISTER's judge from an initiator that is not ACTIVE, whose lease nothing restarts, and from an ACTIVE
one. -/
theorem registerStartsOrKeepsARegistration : Obligations.RegisterStartsOrKeepsARegistration := by
  unfold Obligations.RegisterStartsOrKeepsARegistration
  constructor
  · rintro s i w g htakes hon hst rfl
    have ha : s.tables.inits[i].state.isActive = false := by
      rcases hst with h | h <;> rw [h] <;> rfl
    have hgate : gate s.dirState s.tables.inits[i].state .register = none :=
      gate_eq_none_iff.mpr ⟨hon, .inr (hst.symm.imp (fun h => ⟨h, rfl⟩) fun h => ⟨h, .inl rfl⟩)⟩
    have hjudged : s.judgeInitiator .register judgeRegister i w = judgeRegister s.config i w s.tables := by
      rw [State.judgeInitiator, hgate, State.leaseRestarted_eq, State.afterTake_of_not_active ha]
    have htake := takeInitiator_of_takes (judge := judgeRegister) htakes
    rw [hjudged, judgeRegister_of_not_active ha] at htake
    refine ⟨_, exec_of_initiatorArm registerArm s, ?_⟩
    rw [htake, State.complete_tables]
    exact ⟨completedInitiator_complete _ i _, rfl⟩
  · intro s i w h
    have ha : (s.renewed i).inits[i].state.isActive = true := by
      rw [State.renewed_get_self]
      rfl
    have hj := judgeRegister_of_active (cfg := s.config) (w := w) ha
    rw [State.renewed_get_self] at hj
    exact exec_of_unchanged registerArm h hj

/-! ### Commands that are not due (log entry 4) -/

/-- A request that the arbiter does not hand over is not taken. -/
theorem exec_of_not_offered {k : RequestKind} {c : Instr} (hc : (k, c) ∈ requestCommands) {s : State}
    (h : ∀ m w, ¬s.Offers m k w) : exec c s = .next s := by
  rcases requestCommand_cases hc with ⟨judge, harm⟩ | ⟨rfl, rfl⟩ | ⟨judge, harm⟩
  · rw [exec_of_initiatorArm harm, takeInitiator_of_not_offered h]
  · rw [exec_undefinedRequestKind, takeUndefined_of_not_offered h]
  · rw [exec_of_managementArm harm, takeManagement_of_not_offered h]

theorem takeEngineTick_of_not_delivered {s : State} (h : s.engineTick = false) : takeEngineTick s = s := by
  simp [takeEngineTick, h]

theorem exec_directoryTick (s : State) : exec .directoryTick s = .next (takeEngineTick s) := rfl

theorem exec_waitExpiry (ticket : Ticket) (s : State) : exec (.waitExpiry ticket) s
    = .next (if waiterExpiresNext s.tables ticket then takeEngineTick s else s) := rfl

theorem exec_lapse (i : Initiator) (s : State) : exec (.lapse i) s
    = .next (if leaseEnds s.tables i then takeEngineTick s else s) := rfl

theorem exec_fenceTimerExpiry (s : State) : exec .fenceTimerExpiry s = .next (expireFenceTimer s) := rfl

theorem Waiter.expires_eq_false {v : Waiter} : v.expires = false ↔ ∀ r, v.remaining = some r → 1 < r := by
  unfold Waiter.expires
  cases v.remaining <;> simp

theorem leaseEnds_eq_false {tb : Tables} {i : Initiator} :
    leaseEnds tb i = false ↔ ∀ l, tb.inits[i].state = .active l → 1 < l := by
  unfold leaseEnds
  generalize tb.inits[i].state = st
  cases st <;> simp

theorem waiterExpiresNext_eq_false {tb : Tables} {t : Ticket} :
    waiterExpiresNext tb t = false ↔ ∀ v ∈ tb.queue, v.ticket = t → v.expires = false := by
  simp [waiterExpiresNext]

theorem FenceFlight.expiring_eq_none {f : FenceFlight} :
    f.expiring = none ↔ ∀ i timer, f = .timed i timer → 1 < timer := by
  cases f <;> simp [FenceFlight.expiring]

/-- The three commands of a tick at the engine do nothing when the tick does not act. -/
theorem exec_engineTick_of_unchanged {s : State} {c : Instr} {i : Initiator} {ticket : Ticket}
    (h : takeEngineTick s = s) (hc : c ∈ [Instr.directoryTick, .waitExpiry ticket, .lapse i]) : exec c s = .next s := by
  simp only [List.mem_cons, List.not_mem_nil, or_false] at hc
  rcases hc with rfl | rfl | rfl
  · rw [exec_directoryTick, h]
  · rw [exec_waitExpiry, h, ite_self]
  · rw [exec_lapse, h, ite_self]

/-- Settles O52: each command is guarded by its event. -/
theorem commandsNotDueChangeNothing : Obligations.CommandsNotDueChangeNothing := by
  unfold Obligations.CommandsNotDueChangeNothing
  refine ⟨fun s k c hc h => exec_of_not_offered hc h,
    fun s c i ticket h hc => exec_engineTick_of_unchanged (takeEngineTick_of_not_delivered h) hc,
    fun s ticket h => ?_, fun s i h => ?_, fun s h => ?_⟩
  · have hnone := waiterExpiresNext_eq_false.mpr fun v hv ht => Waiter.expires_eq_false.mpr (h v hv ht)
    rw [exec_waitExpiry, hnone, if_neg Bool.false_ne_true]
  · rw [exec_lapse, leaseEnds_eq_false.mpr h, if_neg Bool.false_ne_true]
  · rw [exec_fenceTimerExpiry, expireFenceTimer, FenceFlight.expiring_eq_none.mpr h]

end Sys2Proof.Machine

/-! PROOF. The arbiter's choice (R155), the departure of an initiator by UNREGISTER and EVICT (R77, R78, R84), and the
management requests that move the directory or clear what the part reports (R114, R133, R135, R167 to R171). -/

namespace Sys2Proof.Machine

/-! ### The request arbiter (R155) -/

/-- In a list in rising order of `d`, the first element with a property is the one of least `d`. -/
theorem find?_eq_some_iff_of_rising {α : Type} {d : α → Nat} {p : α → Bool} {l : List α}
    (hl : l.Pairwise fun a b => d a < d b) {m : α} :
    l.find? p = some m ↔ m ∈ l ∧ p m = true ∧ ∀ x ∈ l, p x = true → d m ≤ d x := by
  induction l with
  | nil => simp
  | cons a rest ih =>
    obtain ⟨ha, hrest⟩ := List.pairwise_cons.mp hl
    cases hpa : p a with
    | true =>
      rw [List.find?_cons_of_pos hpa, Option.some.injEq]
      constructor
      · rintro rfl
        refine ⟨List.mem_cons_self, hpa, fun x hx _ => ?_⟩
        rcases List.mem_cons.mp hx with rfl | hx
        · exact le_rfl
        · exact (ha x hx).le
      · rintro ⟨hm, -, hleast⟩
        rcases List.mem_cons.mp hm with rfl | hm
        · rfl
        · exact absurd (hleast a List.mem_cons_self hpa) (Nat.not_le.mpr (ha m hm))
    | false =>
      rw [List.find?_cons_of_neg (by simp [hpa]), ih hrest]
      constructor
      · rintro ⟨hm, hpm, hleast⟩
        refine ⟨List.mem_cons_of_mem a hm, hpm, fun x hx hpx => ?_⟩
        rcases List.mem_cons.mp hx with rfl | hx
        · rw [hpa] at hpx
          cases hpx
        · exact hleast x hx hpx
      · rintro ⟨hm, hpm, hleast⟩
        rcases List.mem_cons.mp hm with rfl | hm
        · rw [hpa] at hpm
          cases hpm
        · exact ⟨hm, hpm, fun x hx => hleast x (List.mem_cons_of_mem a hx)⟩

theorem ringAfter_rising (p : MailboxId) :
    (ringAfter p).Pairwise fun a b => ringDistance p a < ringDistance p b := by
  have hall : ∀ i : Initiator, (ringAfter (.initiator i)).Pairwise
      fun a b => ringDistance (.initiator i) a < ringDistance (.initiator i) b := by decide
  cases p with
  | management => decide
  | initiator i => exact hall i

theorem mem_ringAfter (p m : MailboxId) : m ∈ ringAfter p := by
  have hperm : (ringAfter p).Perm ring := by
    unfold ringAfter
    exact List.perm_append_comm.trans (by rw [List.take_append_drop])
  exact hperm.mem_iff.mpr (mem_ring m)

/-- Settles O5: the ring from the one after the pointer stands in rising order of distance. -/
theorem arbiterChoosesNextBusyMailbox : Obligations.ArbiterChoosesNextBusyMailbox := by
  unfold Obligations.ArbiterChoosesNextBusyMailbox
  intro s m
  rw [State.arbiterChoice, find?_eq_some_iff_of_rising (ringAfter_rising s.arbiter)]
  simp only [mem_ringAfter, true_and, forall_const]

/-! ### Departure (R77, R78, R81, R82) -/

theorem disposeRecord_eq (i : Initiator) (c : Claim) : disposeRecord i c = afterDeparture i c := by
  obtain ⟨phase, holder, mode, span, tag, ticket⟩ := c
  by_cases h : holder = i
  · cases phase <;> cases mode <;> simp [disposeRecord, afterDeparture, h]
  · simp [disposeRecord, afterDeparture, h]

theorem leaveActive_departed {tb : Tables} (hs : tb.claims.Sorted) (i : Initiator) (st : InitState) :
    Departed tb (leaveActive tb i st) i st where
  records n := by
    change (tb.claims.alter fun _ c => disposeRecord i c).get n = _
    rw [Claims.get_alter hs]
    exact congrArg _ (funext (disposeRecord_eq i))
  sorted := Claims.sorted_alter hs fun _ c => disposeRecord i c
  queue := List.filter_congr fun w _ => by simp
  own := by rw [leaveActive, inits_set_get, if_pos rfl]
  others j hj := by rw [leaveActive, inits_set_get, if_neg hj]
  counter := rfl
  appended hp hi := by
    have hany : ((leaveActive tb i st).claims.any fun e => e.2.pendingDrain && decide (e.2.holder = i)) = true := by
      obtain ⟨e, he, hh, hp⟩ := hp
      exact List.any_eq_true.mpr ⟨e, he, by simp [hh, hp]⟩
    change fenceAfterLeave (leaveActive tb i st).claims tb.fenceQueue i = _
    rw [fenceAfterLeave, if_pos hany, appendFence, if_neg hi]
  kept hk := by
    change fenceAfterLeave (leaveActive tb i st).claims tb.fenceQueue i = _
    unfold fenceAfterLeave
    split
    · rename_i hany
      obtain ⟨e, he, hp⟩ := List.any_eq_true.mp hany
      obtain ⟨hp, hh⟩ := Bool.and_eq_true_iff.mp hp
      rcases hk with hnone | hi
      · rw [hnone e he (of_decide_eq_true hh)] at hp
        cases hp
      · exact if_pos hi
    · rfl

/-- The lease restart is lost when the initiator leaves. -/
theorem leaveActive_renewed (s : State) (i : Initiator) (st : InitState) :
    leaveActive (s.renewed i) i st = leaveActive s.tables i st := by
  simp only [leaveActive, State.renewed_get_self]
  simp [State.renewed]

theorem grantPassIf_hasStake {tb left : Tables} {i : Initiator} :
    (HasStake tb i → grantPassIf (hasStake tb i) left = grantPass left)
      ∧ (¬HasStake tb i → grantPassIf (hasStake tb i) left = left) := by
  rw [← hasStake_iff]
  exact ⟨fun h => by rw [h, grantPassIf_true], fun h => by rw [Bool.eq_false_iff.mpr h, grantPassIf_false]⟩

theorem unregisterArm : (Instr.unregister, RequestKind.unregister, judgeUnregister) ∈ initiatorArms := by
  simp [initiatorArms]

theorem evictArm : (Instr.evict, RequestKind.evict, judgeEvict) ∈ managementArms := by
  simp [managementArms]

theorem judgeEvict_of_off {s : State} (w : RequestWords) (h : s.dirState = .off) :
    judgeEvict w s = (s, .bare .off) :=
  if_pos h

theorem judgeEvict_of_badRequest {s : State} {w : RequestWords} (h : s.dirState ≠ .off) (hw : 7 < w.w2.toNat) :
    judgeEvict w s = (s, .bare .badRequest) := by
  rw [judgeEvict, if_neg h, initiatorOperand_eq_none.mpr hw]

theorem judgeEvict_of_named {s : State} {w : RequestWords} {i : Initiator} (h : s.dirState ≠ .off)
    (hw : w.w2.toNat = i.val) : judgeEvict w s = if s.tables.inits[i].state.isActive = true
      then ({ s with tables := evictTables s.tables i }, .bare .done) else (s, .bare .notActive) := by
  rw [judgeEvict, if_neg h, initiatorOperand_eq_some.mpr hw]
  dsimp only
  split
  · rename_i lease hst
    rw [if_pos (by rw [hst]; rfl)]
  all_goals
    rename_i hst
    rw [if_neg (by rw [hst]; exact Bool.false_ne_true)]

/-- Settles O12: both leave ACTIVE by the same operation; EVICT's refusals stand before it in its judge. -/
theorem unregisterAndEvictDisposeOfEverything : Obligations.UnregisterAndEvictDisposeOfEverything := by
  unfold Obligations.UnregisterAndEvictDisposeOfEverything
  constructor
  · intro s i w hs h
    obtain ⟨t, hexec, htables, hdone⟩ := exec_of_judged unregisterArm h
      (tb := grantPassIf (hasStake s.tables i) (leaveActive s.tables i .unregistered)) (r := .bare .done)
      (by rw [judgeUnregister, leaveActive_renewed]; rfl)
    refine ⟨t, leaveActive s.tables i .unregistered, hexec, hdone, leaveActive_departed hs i _, ?_⟩
    rw [htables]
    exact grantPassIf_hasStake
  · intro s w h
    refine ⟨fun hoff => ?_, fun hon hw => ?_, fun i hon hw => ⟨fun ha => ?_, fun ha hs => ?_⟩⟩
    · obtain ⟨t, hexec, -, hdone⟩ := exec_of_managed evictArm h (judgeEvict_of_off w hoff)
      exact ⟨t, hexec, hdone⟩
    · obtain ⟨t, hexec, -, hdone⟩ := exec_of_managed evictArm h (judgeEvict_of_badRequest hon hw)
      exact ⟨t, hexec, hdone⟩
    · obtain ⟨t, hexec, -, hdone⟩ := exec_of_managed evictArm h
        ((judgeEvict_of_named hon hw).trans (if_neg (by rw [ha]; exact Bool.false_ne_true)))
      exact ⟨t, hexec, hdone⟩
    · obtain ⟨t, hexec, htables, hdone⟩ := exec_of_managed evictArm h ((judgeEvict_of_named hon hw).trans (if_pos ha))
      refine ⟨t, leaveActive s.tables i .lapsed, hexec, ?_, leaveActive_departed hs i _, ?_⟩
      · rw [htables]
        exact hdone
      · rw [htables]
        exact grantPassIf_hasStake

/-! ### ENABLE, DORMANT and DISABLE (R167 to R171) -/

theorem enableArm : (Instr.enable, RequestKind.enable, judgeEnable) ∈ managementArms := by
  simp [managementArms]

theorem dormantArm : (Instr.dormant, RequestKind.dormant, judgeDormant) ∈ managementArms := by
  simp [managementArms]

theorem disableArm : (Instr.disable, RequestKind.disable, judgeDisable) ∈ managementArms := by
  simp [managementArms]

/-- A management request that changes nothing completes with its reply. -/
theorem exec_of_managed_unchanged {c : Instr} {k : RequestKind} {judge : ManagementJudge}
    (harm : (c, k, judge) ∈ managementArms) {s : State} {w : RequestWords} (h : s.Takes .management k w) {r : Reply}
    (hj : judge w s = (s, r)) : ∃ t, exec c s = .next t ∧ CompletedManagement s t r := by
  obtain ⟨t, hexec, -, hdone⟩ := exec_of_managed harm h hj
  exact ⟨t, hexec, hdone⟩

/-- Settles O30: each line is a branch of the judge; the entry into DORMANT is the completion's. -/
theorem enableAndDormantMoveTheDirectory : Obligations.EnableAndDormantMoveTheDirectory := by
  unfold Obligations.EnableAndDormantMoveTheDirectory
  constructor
  · intro s w h
    refine ⟨fun hd => ?_, fun hd => exec_of_managed_unchanged enableArm h (by rw [judgeEnable, hd])⟩
    obtain ⟨t, hexec, -, hdone⟩ := exec_of_managed enableArm h (u := { s with dirState := .on }) (r := .bare .done)
      (by rcases hd with hd | hd <;> rw [judgeEnable, hd])
    exact ⟨t, hexec, hdone⟩
  · intro s w h
    refine ⟨fun hd => exec_of_managed_unchanged dormantArm h (by rw [judgeDormant, hd]), fun hd => ?_,
      fun hd => exec_of_managed_unchanged dormantArm h (by rw [judgeDormant, hd])⟩
    obtain ⟨t, hexec, -, hdone⟩ := exec_of_managed dormantArm h (u := { s with dirState := .quiescing })
      (r := .bare .done) (by rw [judgeDormant, hd])
    refine ⟨t, hexec, hdone, fun hidle => hdone.dormancy.entered rfl fun x hx => ?_, fun hbusy => ?_⟩
    · cases x with
      | management => exact absurd rfl hx
      | initiator i => exact hidle i
    · obtain ⟨i, hi⟩ := hbusy
      exact hdone.dormancy.kept (.inr ⟨.initiator i, nofun, hi⟩)

theorem judgeDisable_of_not_off {s : State} (w : RequestWords) (h : s.dirState ≠ .off) :
    judgeDisable w s = (teardown s, .bare .done) := by
  unfold judgeDisable
  split
  · rename_i hoff
    exact absurd hoff h
  all_goals rfl

/-- Settles O31: the teardown's state, with the initiator table read record by record. -/
theorem disableTearsTheDirectoryDown : Obligations.DisableTearsTheDirectoryDown := by
  unfold Obligations.DisableTearsTheDirectoryDown
  intro s w h
  refine ⟨fun hd => exec_of_managed_unchanged disableArm h (by rw [judgeDisable, hd]), fun hd => ?_⟩
  obtain ⟨t, hexec, -, hdone⟩ := exec_of_managed disableArm h (u := teardown s) (r := .bare .done)
    (judgeDisable_of_not_off w hd)
  exact ⟨t, mapInits teardownInit s.tables.inits, hexec, hdone, fun i => mapInits_get _ _ i⟩

/-! ### CLEAR-QUARANTINE (R114) -/

theorem clearQuarantineArm :
    (Instr.clearQuarantine, RequestKind.clearQuarantine, judgeClearQuarantine) ∈ managementArms := by
  simp [managementArms]

theorem judgeClearQuarantine_of_named {s : State} {w : RequestWords} {n : ClaimNo} (h : s.dirState ≠ .off)
    (hw : Names w n) : judgeClearQuarantine w s =
      if (s.tables.claims.get n).map Claim.phase = some .quarantined then
        ({ s with tables := grantPass { s.tables with claims := s.tables.claims.free n } }, .bare .done)
      else (s, .bare .notQuarantined) := by
  rw [judgeClearQuarantine, if_neg h, claimOperand_eq_some.mpr hw]

/-- A record becomes FREE and no other changes. -/
theorem Claims.onlyChanged_free (claims : Claims) (n : ClaimNo) : claims.OnlyChanged (claims.free n) n none :=
  Claims.get_free claims n

theorem Claims.onlyChanged_put (claims : Claims) (n : ClaimNo) (c : Claim) :
    claims.OnlyChanged (claims.put n c) n (some c) :=
  fun m => Claims.get_put claims n m c

/-- Settles O32: the refusals in the order of the judge's checks, and the grant pass over the table without the record. -/
theorem clearQuarantineFreesTheRecord : Obligations.ClearQuarantineFreesTheRecord := by
  unfold Obligations.ClearQuarantineFreesTheRecord
  intro s w h
  refine ⟨fun hoff => exec_of_managed_unchanged clearQuarantineArm h (if_pos hoff), fun hon hw => ?_,
    fun n hon hw => ⟨fun hnone => ?_, fun c hg hq => ?_⟩⟩
  · exact exec_of_managed_unchanged clearQuarantineArm h
      (by rw [judgeClearQuarantine, if_neg hon, claimOperand_eq_none.mpr hw])
  · refine exec_of_managed_unchanged clearQuarantineArm h
      ((judgeClearQuarantine_of_named hon hw).trans (if_neg fun hmap => ?_))
    obtain ⟨c, hc, hq⟩ := Option.map_eq_some_iff.mp hmap
    exact hnone c hc hq
  · have hmap : (s.tables.claims.get n).map Claim.phase = some .quarantined := by rw [hg, Option.map_some, hq]
    obtain ⟨t, hexec, htables, hdone⟩ := exec_of_managed clearQuarantineArm h
      ((judgeClearQuarantine_of_named hon hw).trans (if_pos hmap))
    refine ⟨t, s.tables.claims.free n, hexec, ?_, htables, Claims.onlyChanged_free _ n⟩
    rw [htables]
    exact hdone

end Sys2Proof.Machine

/-! PROOF. The cycle search (R61, R62): after seven widenings the initiators reached are closed under the relation,
because each widening adds one of the eight or finds nothing to add; so the search decides the transitive closure. -/

namespace Sys2Proof.Machine

/-- The relation that a list of pairs stands for. -/
def Leads (pairs : List (Initiator × Initiator)) (a b : Initiator) : Prop :=
  (a, b) ∈ pairs

/-- The list of initiators is closed under the pairs. -/
def ClosedUnder (pairs : List (Initiator × Initiator)) (from' : List Initiator) : Prop :=
  ∀ a b, a ∈ from' → Leads pairs a b → b ∈ from'

section Search

variable {pairs : List (Initiator × Initiator)} {start : List Initiator}

theorem reached_succ (n : Nat) : reached pairs (n + 1) start = widen pairs (reached pairs n start) := by
  induction n generalizing start with
  | zero => rfl
  | succ n ih => exact ih (start := widen pairs start)

theorem subset_reached (n : Nat) : start ⊆ reached pairs n start := by
  induction n with
  | zero => exact fun _ h => h
  | succ n ih =>
    rw [reached_succ]
    exact fun a ha => mem_widen.mpr (.inl (ih ha))

/-- What is reached is reached along the pairs. -/
theorem path_of_mem_reached {n : Nat} {b : Initiator} (h : b ∈ reached pairs n start) :
    ∃ a ∈ start, Relation.ReflTransGen (Leads pairs) a b := by
  induction n generalizing b with
  | zero => exact ⟨b, h, .refl⟩
  | succ n ih =>
    rw [reached_succ, mem_widen] at h
    rcases h with h | ⟨c, hc, hcb⟩
    · exact ih h
    · obtain ⟨a, ha, hac⟩ := ih hc
      exact ⟨a, ha, hac.tail hcb⟩

theorem ClosedUnder.widen (h : ClosedUnder pairs start) : ClosedUnder pairs (widen pairs start) := by
  have hback : ∀ a, a ∈ Machine.widen pairs start → a ∈ start := by
    intro a ha
    rcases mem_widen.mp ha with ha | ⟨c, hc, hca⟩
    · exact ha
    · exact h c a hc hca
  exact fun a b ha hab => mem_widen.mpr (.inl (h a b (hback a ha) hab))

/-- A widening of a list that is not closed adds an initiator. -/
theorem card_widen_of_not_closed (h : ¬ClosedUnder pairs start) :
    start.toFinset.card < (widen pairs start).toFinset.card := by
  simp only [ClosedUnder, not_forall] at h
  obtain ⟨a, b, ha, hab, hb⟩ := h
  refine Finset.card_lt_card (Finset.ssubset_iff_subset_ne.mpr ⟨fun x hx => ?_, fun heq => hb ?_⟩)
  · exact List.mem_toFinset.mpr (mem_widen.mpr (.inl (List.mem_toFinset.mp hx)))
  · rw [← List.mem_toFinset, heq]
    exact List.mem_toFinset.mpr (mem_widen.mpr (.inr ⟨a, ha, hab⟩))

/-- After `n` widenings the list is closed, or it holds more than `n` initiators. -/
theorem closed_or_card_reached (hne : start ≠ []) (n : Nat) :
    ClosedUnder pairs (reached pairs n start) ∨ n < (reached pairs n start).toFinset.card := by
  induction n with
  | zero =>
    obtain ⟨a, ha⟩ := List.exists_mem_of_ne_nil _ hne
    exact .inr (Finset.card_pos.mpr ⟨a, List.mem_toFinset.mpr ha⟩)
  | succ n ih =>
    rw [reached_succ]
    by_cases hc : ClosedUnder pairs (reached pairs n start)
    · exact .inl hc.widen
    · exact .inr (by have := card_widen_of_not_closed hc; have := ih.resolve_left hc; omega)

/-- Seven widenings suffice for eight initiators. -/
theorem closed_reached_seven (hne : start ≠ []) : ClosedUnder pairs (reached pairs 7 start) := by
  rcases closed_or_card_reached (pairs := pairs) hne 7 with hc | hcard
  · exact hc
  · have hle := Finset.card_le_univ (reached pairs 7 start).toFinset
    have huniv : (reached pairs 7 start).toFinset = Finset.univ :=
      Finset.eq_univ_of_card _ (by rw [Fintype.card_fin] at hle ⊢; omega)
    exact fun _ b _ _ => List.mem_toFinset.mp (huniv ▸ Finset.mem_univ b)

theorem ClosedUnder.path (h : ClosedUnder pairs start) {a b : Initiator} (ha : a ∈ start)
    (hab : Relation.ReflTransGen (Leads pairs) a b) : b ∈ start := by
  induction hab with
  | refl => exact ha
  | tail _ hbc ih => exact h _ _ ih hbc

end Search

theorem waitsThrough_iff {pairs : List (Initiator × Initiator)} {a b : Initiator} :
    waitsThrough pairs a b = true ↔ Relation.TransGen (Leads pairs) a b := by
  have hstart : ∀ c, c ∈ (pairs.filter fun p => decide (p.1 = a)).map (·.2) ↔ Leads pairs a c := by
    intro c
    simp only [List.mem_map, List.mem_filter, decide_eq_true_eq]
    constructor
    · rintro ⟨⟨x, y⟩, ⟨hp, rfl⟩, rfl⟩
      exact hp
    · exact fun hp => ⟨(a, c), ⟨hp, rfl⟩, rfl⟩
  rw [waitsThrough, List.contains_iff_mem]
  constructor
  · intro h
    obtain ⟨c, hc, hcb⟩ := path_of_mem_reached h
    exact .head' ((hstart c).mp hc) hcb
  · intro h
    obtain ⟨c, hac, hcb⟩ := Relation.TransGen.head'_iff.mp h
    have hc := (hstart c).mpr hac
    exact (closed_reached_seven (List.ne_nil_of_mem hc)).path (subset_reached 7 hc) hcb

theorem hasCycle_iff {pairs : List (Initiator × Initiator)} :
    hasCycle pairs = true ↔ ∃ a, Relation.TransGen (Leads pairs) a a := by
  simp only [hasCycle, List.any_eq_true, List.mem_finRange, true_and, waitsThrough_iff]

/-- Settles O27: the search decides the closure of its pairs, which are the wait-for relation. -/
theorem cycleSearchDecidesTheWaitForRelation : Obligations.CycleSearchDecidesTheWaitForRelation := by
  unfold Obligations.CycleSearchDecidesTheWaitForRelation
  intro claims queue
  have hrel : Leads (waitPairs claims queue) = WaitsFor claims queue := by
    funext a b
    exact propext mem_waitPairs
  rw [hasCycle_iff, hrel]

end Sys2Proof.Machine

/-! PROOF. CLAIM (R22, R27 to R34): the judge at step 4 of R27, the grant, the place in the queue, and the refusals in
the order of the checks. -/

namespace Sys2Proof.Machine

/-! ### Offers to the queue (R55) -/

section Placement

variable {tb : Tables} {v : Waiter}

theorem placementRefusal_queueFull (h : 64 ≤ tb.queue.length) : placementRefusal tb v = some .queueFull :=
  if_pos h

theorem placementRefusal_tickets (hroom : tb.queue.length < 64) (h : 8 ≤ openTicketCount tb v.initiator) :
    placementRefusal tb v = some .tickets := by
  have hroom : ¬queueCapacity ≤ tb.queue.length := Nat.not_le.mpr hroom
  have h : ticketCapacity ≤ openTicketCount tb v.initiator := h
  rw [placementRefusal, if_neg hroom, if_pos h]

theorem placementRefusal_deadlock (hroom : tb.queue.length < 64) (h : openTicketCount tb v.initiator < 8)
    (hcycle : hasCycle (waitPairs tb.claims (placeWaiter tb.queue v)) = true) :
    placementRefusal tb v = some .deadlock := by
  have hroom : ¬queueCapacity ≤ tb.queue.length := Nat.not_le.mpr hroom
  have h : ¬ticketCapacity ≤ openTicketCount tb v.initiator := Nat.not_le.mpr h
  rw [placementRefusal, if_neg hroom, if_neg h, if_pos hcycle]

theorem offerWaiter_of_refusal {o : OutcomeCode} (h : placementRefusal tb v = some o) :
    offerWaiter tb v = (tb, .bare o) := by
  rw [offerWaiter, h]

theorem offerWaiter_of_placed (h : placementRefusal tb v = none) :
    offerWaiter tb v = (queueWaiter tb v, .plain .queued v.ticket) := by
  rw [offerWaiter, h]

end Placement

theorem hasCycle_waitPairs_iff {claims : Claims} {queue : List Waiter} :
    hasCycle (waitPairs claims queue) = true ↔ ∃ a, Relation.TransGen (WaitsFor claims queue) a a :=
  cycleSearchDecidesTheWaitForRelation claims queue

theorem hasCycle_waitPairs_eq_false_iff {claims : Claims} {queue : List Waiter} :
    hasCycle (waitPairs claims queue) = false ↔ ¬∃ a, Relation.TransGen (WaitsFor claims queue) a a := by
  rw [← hasCycle_waitPairs_iff, Bool.not_eq_true]

/-- The waiter without its ticket. -/
def Waiter.unticketed (w : Waiter) : Waiter :=
  { w with ticket := 0 }

theorem waitPairs_unticketed (claims : Claims) (queue : List Waiter) :
    waitPairs claims (queue.map Waiter.unticketed) = waitPairs claims queue := by
  have hpairs : ∀ earlier w, pairsOf claims (earlier.map Waiter.unticketed) w.unticketed = pairsOf claims earlier w := by
    intro earlier w
    simp only [pairsOf, List.filter_map, List.map_map]
    rfl
  have hfrom : ∀ earlier, waitPairsFrom claims (earlier.map Waiter.unticketed) (queue.map Waiter.unticketed)
      = waitPairsFrom claims earlier queue := by
    induction queue with
    | nil => exact fun _ => rfl
    | cons w rest ih =>
      intro earlier
      rw [List.map_cons, waitPairsFrom, waitPairsFrom, hpairs, ← ih (earlier ++ [w])]
      simp
  exact hfrom []

/-- The relation does not see under which tickets the waiters stand. -/
theorem waitPairs_of_unticketed (claims : Claims) {queue queue' : List Waiter}
    (h : queue.map Waiter.unticketed = queue'.map Waiter.unticketed) :
    waitPairs claims queue = waitPairs claims queue' := by
  rw [← waitPairs_unticketed, h, waitPairs_unticketed]

/-! ### The judge at step 4 -/

theorem claimArm : (Instr.claim, RequestKind.claim, judgeClaim) ∈ initiatorArms := by
  simp [initiatorArms]

theorem claimWaiter_renewed (s : State) (i : Initiator) (mode : Mode) (w : RequestWords) :
    claimWaiter (s.renewed i) i mode w = claimEntry i w mode (issuedTicket s.tables) := by
  rw [claimWaiter, State.renewed_issuedTicket]
  rfl

/-- A form that is not malformed names its mode (R22). -/
theorem modeOperand_isSome {w : RequestWords} (h : bitField 8 2 w.w1 < 2) : ∃ mode, modeOperand w = some mode := by
  rcases (by omega : bitField 8 2 w.w1 = 0 ∨ bitField 8 2 w.w1 = 1) with h | h
  · exact ⟨.shared, by simp [modeOperand, h]⟩
  · exact ⟨.exclusive, by simp [modeOperand, h]⟩

theorem modeOperand_eq_none {w : RequestWords} (h : 2 ≤ bitField 8 2 w.w1) : modeOperand w = none := by
  unfold modeOperand
  split
  · omega
  · omega
  · rfl

section Judge

variable {s : State} {i : Initiator} {w : RequestWords}

theorem judgeClaim_of_mode {mode : Mode} (h : modeOperand w = some mode) (cfg : ConfigRegs) (tb : Tables) :
    judgeClaim cfg i w tb = judgeClaimMode cfg i w tb mode := by
  rw [judgeClaim, h]

/-- The judge of a CLAIM at step 4: granted at once, or else refused or queued. -/
theorem judgeClaim_at_step4 {mode : Mode} (h4 : ClaimAtStep4 s i w mode) :
    judgeClaim s.config i w (s.renewed i) =
      match judgeWaiter s.tables.claims s.tables.queue (claimEntry i w mode (issuedTicket s.tables)) with
      | some (n, c) => ({ s.renewed i with claims := s.tables.claims.put n c },
          .plain .granted (BitVec.ofNat 16 n.val))
      | none => claimNotGranted (s.renewed i) (claimEntry i w mode (issuedTicket s.tables)) (waitLimit w) := by
  have hlegal : (claimSpan w).legal s.config.guardLimit ≠ false := by
    rw [Span.legal_iff.mpr h4.legal]
    exact nofun
  have hapart : ¬selfOverlaps (s.renewed i) i (claimSpan w) = true := fun h => h4.apart (selfOverlaps_iff.mp h)
  have hlimit : ¬s.config.claimLimit ≤ claimCount (s.renewed i) i := Nat.not_le.mpr h4.belowLimit
  rw [judgeClaim_of_mode h4.form, judgeClaimMode, if_neg hlegal, if_neg hapart, if_neg hlimit, claimWaiter_renewed]
  rfl

theorem judgeClaim_granted {mode : Mode} {n : ClaimNo} (h4 : ClaimAtStep4 s i w mode)
    (hclear : ¬Contends s.tables.claims s.tables.queue none mode (claimSpan w)) (hn : s.tables.claims.Lowest n) :
    judgeClaim s.config i w (s.renewed i) = ({ s.renewed i with
        claims := s.tables.claims.put n ⟨.held, i, mode, claimSpan w, tagOperand w, none⟩ },
      .plain .granted (BitVec.ofNat 16 n.val)) := by
  have hjudged : judgeWaiter s.tables.claims s.tables.queue (claimEntry i w mode (issuedTicket s.tables))
      = some (n, ⟨.held, i, mode, claimSpan w, tagOperand w, none⟩) :=
    judgeWaiter_eq_some.mpr ⟨contended_eq_false_iff.mpr hclear,
      grantedRecord_eq_some.mpr (.inl ⟨mode, rfl, Claims.lowestFree_eq_some.mpr hn, rfl⟩)⟩
  rw [judgeClaim_at_step4 h4, hjudged]

theorem judgeClaim_not_granted {mode : Mode} (h4 : ClaimAtStep4 s i w mode) (hng : ClaimNotGrantable s.tables w mode) :
    judgeClaim s.config i w (s.renewed i)
      = claimNotGranted (s.renewed i) (claimEntry i w mode (issuedTicket s.tables)) (waitLimit w) := by
  have hjudged : judgeWaiter s.tables.claims s.tables.queue (claimEntry i w mode (issuedTicket s.tables)) = none := by
    refine judgeWaiter_eq_none.mpr (hng.imp (fun h => contended_iff.mpr h) fun h => ?_)
    rw [grantedRecord, claimEntry]
    exact Option.map_eq_none_iff.mpr (Claims.lowestFree_eq_none.mpr h)
  rw [judgeClaim_at_step4 h4, hjudged]

/-- A CLAIM that may wait is offered to the queue (R34). -/
theorem judgeClaim_offered {mode : Mode} (h4 : ClaimAtStep4 s i w mode) (hng : ClaimNotGrantable s.tables w mode)
    (hwait : waitLimit w ≠ 0) : judgeClaim s.config i w (s.renewed i)
      = offerWaiter (s.renewed i) (claimEntry i w mode (issuedTicket s.tables)) := by
  rw [judgeClaim_not_granted h4 hng, claimNotGranted, if_neg hwait]

/-- The checks of R27 before step 4, for a CLAIM of known mode. -/
theorem judgeClaim_of_range {mode : Mode} (hm : modeOperand w = some mode)
    (h : ¬(claimSpan w).Legal s.config.guardLimit) :
    judgeClaim s.config i w (s.renewed i) = (s.renewed i, .bare .range) := by
  rw [judgeClaim_of_mode hm, judgeClaimMode, if_pos (Span.legal_eq_false_iff.mpr h)]

theorem judgeClaim_of_selfOverlap {mode : Mode} (hm : modeOperand w = some mode)
    (hlegal : (claimSpan w).Legal s.config.guardLimit) (h : OverlapsOwn s.tables i (claimSpan w)) :
    judgeClaim s.config i w (s.renewed i) = (s.renewed i, .bare .selfOverlap) := by
  have hlegal : (claimSpan w).legal s.config.guardLimit ≠ false := by
    rw [Span.legal_iff.mpr hlegal]
    exact nofun
  have hown : selfOverlaps (s.renewed i) i (claimSpan w) = true := selfOverlaps_iff.mpr h
  rw [judgeClaim_of_mode hm, judgeClaimMode, if_neg hlegal, if_pos hown]

theorem judgeClaim_of_limit {mode : Mode} (hm : modeOperand w = some mode)
    (hlegal : (claimSpan w).Legal s.config.guardLimit) (hapart : ¬OverlapsOwn s.tables i (claimSpan w))
    (h : claimCount s.tables i = s.config.claimLimit) :
    judgeClaim s.config i w (s.renewed i) = (s.renewed i, .bare .limit) := by
  have hlegal : (claimSpan w).legal s.config.guardLimit ≠ false := by
    rw [Span.legal_iff.mpr hlegal]
    exact nofun
  have hapart : ¬selfOverlaps (s.renewed i) i (claimSpan w) = true := fun h => hapart (selfOverlaps_iff.mp h)
  have hlimit : s.config.claimLimit ≤ claimCount (s.renewed i) i := h.ge
  rw [judgeClaim_of_mode hm, judgeClaimMode, if_neg hlegal, if_neg hapart, if_pos hlimit]

end Judge

theorem placeWaiter_claimEntry (queue : List Waiter) (i : Initiator) (w : RequestWords) (mode : Mode) (t : Ticket) :
    placeWaiter queue (claimEntry i w mode t) = queue ++ [claimEntry i w mode t] := rfl

/-- What refuses the CLAIM's place is seen by the queue before it, whatever the ticket. -/
theorem offerWaiter_claimEntry_deadlock {s : State} {i : Initiator} {w : RequestWords} {mode : Mode} {t : Ticket}
    (hroom : s.tables.queue.length < 64) (htickets : openTicketCount s.tables i < 8)
    (h : ∃ a, Relation.TransGen (WaitsFor s.tables.claims (s.tables.queue ++ [claimEntry i w mode t])) a a) :
    offerWaiter (s.renewed i) (claimEntry i w mode (issuedTicket s.tables)) = (s.renewed i, .bare .deadlock) := by
  refine offerWaiter_of_refusal (placementRefusal_deadlock hroom ?_ ?_)
  · exact (State.renewed_openTicketCount s i i).trans_lt htickets
  · have hsame : waitPairs s.tables.claims (s.tables.queue ++ [claimEntry i w mode (issuedTicket s.tables)])
        = waitPairs s.tables.claims (s.tables.queue ++ [claimEntry i w mode t]) :=
      waitPairs_of_unticketed _ (by simp only [List.map_append]; rfl)
    rw [placeWaiter_claimEntry, State.renewed_claims, State.renewed_queue, hsame]
    exact hasCycle_waitPairs_iff.mpr h

/-- Settles O13: the judge at step 4 when nothing contends and a record is FREE. -/
theorem claimGrantedAtOnceTakesTheLowestFreeRecord : Obligations.ClaimGrantedAtOnceTakesTheLowestFreeRecord := by
  unfold Obligations.ClaimGrantedAtOnceTakesTheLowestFreeRecord
  intro s i w mode n h h4 hclear hn
  obtain ⟨t, hexec, htables, hdone⟩ := exec_of_judged claimArm h (judgeClaim_granted h4 hclear hn)
  refine ⟨t, hexec, hdone, ?_, ?_⟩ <;> rw [htables]
  exact Claims.onlyChanged_put _ n _

/-- Settles O14: each refusal is a branch of the judge, the earlier checks passed. -/
theorem claimRefusalsFollowTheOrderOfChecks : Obligations.ClaimRefusalsFollowTheOrderOfChecks := by
  unfold Obligations.ClaimRefusalsFollowTheOrderOfChecks
  intro s i w o h hrefused
  refine exec_of_unchanged claimArm h ?_
  cases hrefused with
  | form hform => rw [judgeClaim, modeOperand_eq_none hform]
  | range hform hr =>
    obtain ⟨mode, hm⟩ := modeOperand_isSome hform
    exact judgeClaim_of_range hm hr
  | selfOverlap hform hlegal ho =>
    obtain ⟨mode, hm⟩ := modeOperand_isSome hform
    exact judgeClaim_of_selfOverlap hm hlegal ho
  | limit hform hlegal hapart hl =>
    obtain ⟨mode, hm⟩ := modeOperand_isSome hform
    exact judgeClaim_of_limit hm hlegal hapart hl
  | conflict mode h4 hwait hc =>
    have hcontended : contended (s.renewed i).claims (s.renewed i).queue
        (claimEntry i w mode (issuedTicket s.tables)) = true := contended_iff.mpr hc
    rw [judgeClaim_not_granted h4 (.inl hc), claimNotGranted, if_pos hwait, if_pos hcontended]
  | tableFull mode h4 hwait hclear hfull =>
    have hcontended : ¬contended (s.renewed i).claims (s.renewed i).queue
        (claimEntry i w mode (issuedTicket s.tables)) = true := fun hc => hclear (contended_iff.mp hc)
    rw [judgeClaim_not_granted h4 (.inr hfull), claimNotGranted, if_pos hwait, if_neg hcontended]
  | queueFull mode h4 hwait hng hfull =>
    rw [judgeClaim_offered h4 hng hwait]
    exact offerWaiter_of_refusal (placementRefusal_queueFull hfull)
  | tickets mode h4 hwait hng hroom h8 =>
    rw [judgeClaim_offered h4 hng hwait]
    exact offerWaiter_of_refusal (placementRefusal_tickets hroom (h8.trans (State.renewed_openTicketCount s i i).ge))
  | deadlock mode t h4 hwait hng hroom htickets hcycle =>
    rw [judgeClaim_offered h4 hng hwait]
    exact offerWaiter_claimEntry_deadlock hroom htickets hcycle

/-- Settles O15: the judge at step 4 when the CLAIM cannot be granted and its placement is not refused. -/
theorem claimQueuedJoinsTheTail : Obligations.ClaimQueuedJoinsTheTail := by
  unfold Obligations.ClaimQueuedJoinsTheTail
  intro s i w mode h h4 hng hwait hroom htickets hfree
  have hplaced : placementRefusal (s.renewed i) (claimEntry i w mode (issuedTicket s.tables)) = none :=
    placementRefusal_eq_none.mpr ⟨hroom, (State.renewed_openTicketCount s i i).trans_lt htickets,
      hasCycle_waitPairs_eq_false_iff.mpr hfree⟩
  obtain ⟨t, hexec, htables, hdone⟩ := exec_of_judged claimArm h
    ((judgeClaim_offered h4 hng hwait).trans (offerWaiter_of_placed hplaced))
  exact ⟨t, hexec, hdone, htables⟩

end Sys2Proof.Machine

/-! PROOF. Words built from fields: a field whose width the value fits, the bits that a joined word can set, single bits
and whole words; and the result words of a reply (R151, R157, R158). -/

namespace Sys2Proof.Machine

/-! ### Fields -/

/-- A placed value that fits its field reads as it is. -/
theorem bitField_place_of_lt {lo width v : Nat} (h : lo + width ≤ 32) (hv : v < 2 ^ width) :
    bitField lo width (place lo width v) = v := by
  rw [bitField_place_self v h, Nat.mod_eq_of_lt hv]

theorem place_getLsbD (lo width v k : Nat) :
    (place lo width v).getLsbD k = (decide (k < 32) && decide (lo ≤ k) && decide (k - lo < width) && v.testBit (k - lo)) := by
  simp only [place, BitVec.getLsbD_shiftLeft, BitVec.getLsbD_setWidth, BitVec.getLsbD_ofNat]
  by_cases h1 : k < 32 <;> by_cases h2 : lo ≤ k
  · have h3 : k - lo < 32 := by omega
    simp [h1, h2, h3]
  · have h3 : k < lo := by omega
    simp [h1, h2, h3]
  · simp [h1]
  · simp [h1]

/-- A bit apart from the placed field is 0. -/
theorem place_getLsbD_apart {lo width v k : Nat} (h : k < lo ∨ lo + width ≤ k) : (place lo width v).getLsbD k = false := by
  rw [place_getLsbD]
  rcases h with h | h
  · simp [Nat.not_le.mpr h]
  · simp [show ¬k - lo < width by omega]

theorem placeBit_getLsbD_self {lo : Nat} (b : Bool) (h : lo < 32) : (placeBit lo b).getLsbD lo = b := by
  rw [placeBit, place_getLsbD]
  cases b <;> simp [h]

theorem placeBit_getLsbD_apart {lo k : Nat} (b : Bool) (h : k < lo ∨ lo + 1 ≤ k) : (placeBit lo b).getLsbD k = false :=
  place_getLsbD_apart h

/-! ### Bits that a word can set -/

theorem onlyBits_iff {w mask : Word} : OnlyBits w mask ↔ ∀ k, k < 32 → w.getLsbD k = true → mask.getLsbD k = true := by
  have hbits : OnlyBits w mask ↔ ∀ k, k < 32 → (w.getLsbD k && !mask.getLsbD k) = false := by
    constructor
    · intro h k hk
      have := congrArg (fun x => BitVec.getLsbD x k) h
      simpa [hk] using this
    · intro h
      refine BitVec.eq_of_getLsbD_eq fun k hk => ?_
      have := h k hk
      simpa [hk] using this
  rw [hbits]
  refine forall_congr' fun k => forall_congr' fun _ => ?_
  cases w.getLsbD k <;> cases mask.getLsbD k <;> simp

theorem onlyBits_zero (mask : Word) : OnlyBits 0 mask := by
  simp [onlyBits_iff]

theorem onlyBits_or {a b mask : Word} (ha : OnlyBits a mask) (hb : OnlyBits b mask) : OnlyBits (a ||| b) mask := by
  rw [onlyBits_iff] at ha hb ⊢
  intro k hk h
  rw [BitVec.getLsbD_or, Bool.or_eq_true] at h
  exact h.elim (ha k hk) (hb k hk)

/-- A placed field sets bits of its own alone. -/
theorem onlyBits_place {lo width : Nat} (v : Nat) {mask : Word} (h : ∀ k < width, mask.getLsbD (lo + k) = true) :
    OnlyBits (place lo width v) mask := by
  rw [onlyBits_iff]
  intro k _ hk
  rw [place_getLsbD] at hk
  simp only [Bool.and_eq_true, decide_eq_true_eq] at hk
  obtain ⟨⟨⟨-, hle⟩, hlt⟩, -⟩ := hk
  have := h (k - lo) hlt
  rwa [Nat.add_sub_cancel' hle] at this

theorem onlyBits_placeBit {lo : Nat} (b : Bool) {mask : Word} (h : mask.getLsbD lo = true) :
    OnlyBits (placeBit lo b) mask :=
  onlyBits_place _ fun k hk => by
    obtain rfl : k = 0 := by omega
    exact h

/-- A word of one field from bit 0 up. -/
theorem place_zero_toNat {width v : Nat} (h : width ≤ 32) : (place 0 width v).toNat = v % 2 ^ width := by
  rw [place, BitVec.shiftLeft_zero, BitVec.toNat_setWidth, BitVec.toNat_ofNat,
    Nat.mod_eq_of_lt ((Nat.mod_lt _ (by positivity)).trans_le (Nat.pow_le_pow_right (by decide) h))]

/-! ### The reply (R151, R157, R158) -/

theorem Reply.words_zero (r : Reply) : r.words[0] = r.word6 := rfl

theorem Reply.words_succ (r : Reply) (k : Fin 9) : r.words[k.val + 1] = r.records[k] := by
  fin_cases k <;> rfl

theorem OutcomeCode.code_lt (o : OutcomeCode) : o.code < 2 ^ 8 := by
  cases o <;> decide

theorem OutcomeCode.isSuccess_iff (o : OutcomeCode) : o.isSuccess = true ↔ o.code < 0x10 := by
  cases o <;> decide

/-- Settles O9: word 6 by its two fields, the other words by position, and the table of codes. -/
theorem resultWordsCarryTheReply : Obligations.ResultWordsCarryTheReply := by
  unfold Obligations.ResultWordsCarryTheReply
  refine ⟨fun r => ⟨?_, ?_, ?_, r.words_succ⟩, rfl, OutcomeCode.isSuccess_iff⟩ <;>
    rw [Reply.words_zero, Reply.word6, bitField_or]
  · rw [bitField_place_of_lt (by decide) r.outcome.code_lt, bitField_place_apart _ (by decide), Nat.or_zero]
  · rw [bitField_place_apart _ (by decide), bitField_place_apart _ (by decide), Nat.or_zero]
  · rw [bitField_place_apart _ (by decide), bitField_place_of_lt (by decide) r.primary.isLt, Nat.zero_or]

end Sys2Proof.Machine

/-! PROOF. The requests on a named record (R35 to R41) and those that end a wait (R59, R69): each judge by the record or
the waiter that the request names, and UPGRADE's grant test at step 5 of R35. -/

namespace Sys2Proof.Machine

/-! ### The named record (R22, R35, R38, R39) -/

section Named

variable {cfg : ConfigRegs} {i : Initiator} {w : RequestWords} {tb : Tables} {n : ClaimNo} {c : Claim}

/-- The three judges refuse alike what names no record of the requester, or a QUARANTINED one. -/
theorem judged_of_nameRefusal {o : OutcomeCode} (h : NameRefusal tb.claims i w o) {judge : InitiatorJudge}
    (hj : judge ∈ [judgeUpgrade, judgeDowngrade, judgeRelease]) : judge cfg i w tb = (tb, .bare o) := by
  simp only [List.mem_cons, List.not_mem_nil, or_false] at hj
  cases h with
  | form hform =>
    rcases hj with rfl | rfl | rfl <;>
      simp only [judgeUpgrade, judgeDowngrade, judgeRelease, claimOperand_eq_none.mpr hform]
  | notHolder n hn hnot =>
    have hop := claimOperand_eq_some.mpr hn
    cases hnot with
    | free hg => rcases hj with rfl | rfl | rfl <;> simp only [judgeUpgrade, judgeDowngrade, judgeRelease, hop, hg]
    | other c hg hh =>
      rcases hj with rfl | rfl | rfl <;> simp only [judgeUpgrade, judgeDowngrade, judgeRelease, hop, hg, if_pos hh]
    | out c stage hg hh hp =>
      rcases hj with rfl | rfl | rfl <;> simp [judgeUpgrade, judgeDowngrade, judgeRelease, hop, hg, hh, hp]
  | quarantined n hn c hg hh hp =>
    have hop := claimOperand_eq_some.mpr hn
    rcases hj with rfl | rfl | rfl <;> simp [judgeUpgrade, judgeDowngrade, judgeRelease, hop, hg, hh, hp]

theorem judgeUpgrade_of_exclusive (h : NamesHeld tb.claims i w n c .exclusive) :
    judgeUpgrade cfg i w tb = (tb, .bare .badMode) := by
  simp [judgeUpgrade, claimOperand_eq_some.mpr h.named, h.record, h.holder, h.phase, h.mode]

theorem judgeUpgrade_of_draining {stage : Stage} (h : NamesDraining tb.claims i w n c stage) :
    judgeUpgrade cfg i w tb = (tb, .bare .badPhase) := by
  simp [judgeUpgrade, claimOperand_eq_some.mpr h.named, h.record, h.holder, h.phase]

theorem judgeUpgrade_of_ticket (h : NamesHeld tb.claims i w n c .shared) {t : Ticket} (ht : c.upgradeTicket = some t) :
    judgeUpgrade cfg i w tb = (tb, .bare .badPhase) := by
  simp [judgeUpgrade, claimOperand_eq_some.mpr h.named, h.record, h.holder, h.phase, h.mode, ht]

theorem judgeUpgrade_of_shared (h : NamesHeld tb.claims i w n c .shared) (ht : c.upgradeTicket = none) :
    judgeUpgrade cfg i w tb = judgeUpgradeStep5 i w tb n c := by
  simp [judgeUpgrade, claimOperand_eq_some.mpr h.named, h.record, h.holder, h.phase, h.mode, ht]

theorem judgeDowngrade_of_exclusive (h : NamesHeld tb.claims i w n c .exclusive) :
    judgeDowngrade cfg i w tb = ({ tb with
        claims := tb.claims.put n { c with phase := .drainingDown .pending, mode := .shared }
        fenceQueue := appendFence tb.fenceQueue i }, .bare .done) := by
  simp [judgeDowngrade, claimOperand_eq_some.mpr h.named, h.record, h.holder, h.phase, h.mode]

theorem judgeDowngrade_of_shared (h : NamesHeld tb.claims i w n c .shared) :
    judgeDowngrade cfg i w tb = (tb, .bare .badMode) := by
  simp [judgeDowngrade, claimOperand_eq_some.mpr h.named, h.record, h.holder, h.phase, h.mode]

theorem judgeDowngrade_of_draining {stage : Stage} (h : NamesDraining tb.claims i w n c stage) :
    judgeDowngrade cfg i w tb = (tb, .bare .badPhase) := by
  simp [judgeDowngrade, claimOperand_eq_some.mpr h.named, h.record, h.holder, h.phase]

theorem judgeRelease_of_exclusive (h : NamesHeld tb.claims i w n c .exclusive) :
    judgeRelease cfg i w tb = ({ tb with
        claims := tb.claims.put n { c with phase := .drainingOut .pending }
        fenceQueue := appendFence tb.fenceQueue i }, .bare .done) := by
  simp [judgeRelease, claimOperand_eq_some.mpr h.named, h.record, h.holder, h.phase, h.mode]

theorem judgeRelease_of_shared (h : NamesHeld tb.claims i w n c .shared) :
    judgeRelease cfg i w tb = (releaseShared tb i n c, .bare .done) := by
  simp [judgeRelease, claimOperand_eq_some.mpr h.named, h.record, h.holder, h.phase, h.mode]

theorem judgeRelease_of_draining {stage : Stage} (h : NamesDraining tb.claims i w n c stage) :
    judgeRelease cfg i w tb = ({ tb with claims := tb.claims.put n { c with phase := .drainingOut stage } },
      .bare .done) := by
  simp [judgeRelease, claimOperand_eq_some.mpr h.named, h.record, h.holder, h.phase]

end Named

/-! ### UPGRADE at step 5 (R36, R37, R63) -/

theorem upgradeArm : (Instr.upgrade, RequestKind.upgrade, judgeUpgrade) ∈ initiatorArms := by
  simp [initiatorArms]

/-- The place of an UPGRADE is between the two runs (R48). -/
theorem TwoRuns.aheadOf {queue ups cls : List Waiter} (h : TwoRuns queue ups cls) {v : Waiter} (hv : v.isClaim = false) :
    aheadOf queue v = ups ∧ behindOf queue v = cls := by
  have hcls : ∀ u ∈ cls, ¬u.isUpgrade = true := fun u hu => by simp [Waiter.isUpgrade, h.claims u hu]
  have htake : cls.takeWhile Waiter.isUpgrade = [] := List.takeWhile_eq_nil_iff.mpr fun hlen => hcls _ (List.getElem_mem hlen)
  have hdrop : cls.dropWhile Waiter.isUpgrade = cls := List.dropWhile_eq_self_iff.mpr fun hlen => hcls _ (List.getElem_mem hlen)
  simp only [Machine.aheadOf, behindOf, hv, Bool.false_eq_true, if_false, h.split]
  rw [List.takeWhile_append_of_pos h.upgrades, htake, List.append_nil, List.dropWhile_append_of_pos h.upgrades, hdrop]
  exact ⟨rfl, rfl⟩

theorem upgradeWaiter_renewed (s : State) (i : Initiator) (n : ClaimNo) (c : Claim) (w : RequestWords) :
    upgradeWaiter (s.renewed i) i n c w = upgradeEntry i w n c (issuedTicket s.tables) := by
  rw [upgradeWaiter, State.renewed_issuedTicket]
  rfl

theorem TwoRuns.placeWaiter_upgradeEntry {queue ups cls : List Waiter} (h : TwoRuns queue ups cls) (i : Initiator)
    (w : RequestWords) (n : ClaimNo) (c : Claim) (t : Ticket) :
    placeWaiter queue (upgradeEntry i w n c t) = ups ++ upgradeEntry i w n c t :: cls := by
  obtain ⟨hahead, hbehind⟩ := h.aheadOf (v := upgradeEntry i w n c t) rfl
  rw [placeWaiter, hahead, hbehind]

section Step5

variable {s : State} {i : Initiator} {w : RequestWords} {n : ClaimNo} {c : Claim} {ups cls : List Waiter}
  (hruns : TwoRuns s.tables.queue ups cls)

include hruns

theorem contended_upgradeEntry_iff (t : Ticket) :
    contended (s.renewed i).claims (aheadOf (s.renewed i).queue (upgradeEntry i w n c t)) (upgradeEntry i w n c t) = true
      ↔ Contends s.tables.claims ups (some n) .exclusive c.span := by
  rw [State.renewed_queue, (hruns.aheadOf (v := upgradeEntry i w n c t) rfl).1, contended_iff]
  exact Iff.rfl

/-- UPGRADE's grant test when nothing contends: the grant, unless it closes a cycle. -/
theorem judgeUpgradeStep5_clear (hclear : ¬Contends s.tables.claims ups (some n) .exclusive c.span) :
    judgeUpgradeStep5 i w (s.renewed i) n c =
      if hasCycle (waitPairs (upgradedClaims s.tables.claims n c) s.tables.queue) then (s.renewed i, .bare .deadlock)
      else ({ s.renewed i with claims := upgradedClaims s.tables.claims n c }, .plain .granted (BitVec.ofNat 16 n.val)) := by
  have hfree := Bool.eq_false_iff.mpr
    (mt (contended_upgradeEntry_iff (i := i) (w := w) hruns (issuedTicket s.tables)).mp hclear)
  unfold judgeUpgradeStep5
  rw [upgradeWaiter_renewed]
  exact if_pos hfree

theorem judgeUpgradeStep5_contends (hc : Contends s.tables.claims ups (some n) .exclusive c.span) :
    judgeUpgradeStep5 i w (s.renewed i) n c = if waitLimit w = 0 then (s.renewed i, .bare .conflict)
      else offerWaiter (s.renewed i) (upgradeEntry i w n c (issuedTicket s.tables)) := by
  have hcontended := (contended_upgradeEntry_iff (i := i) (w := w) hruns (issuedTicket s.tables)).mpr hc
  unfold judgeUpgradeStep5
  rw [upgradeWaiter_renewed]
  exact if_neg (by rw [hcontended]; exact nofun)

theorem offerWaiter_upgradeEntry_deadlock {t : Ticket} (hroom : s.tables.queue.length < 64)
    (htickets : openTicketCount s.tables i < 8)
    (h : ∃ a, Relation.TransGen (WaitsFor s.tables.claims (ups ++ upgradeEntry i w n c t :: cls)) a a) :
    offerWaiter (s.renewed i) (upgradeEntry i w n c (issuedTicket s.tables)) = (s.renewed i, .bare .deadlock) := by
  refine offerWaiter_of_refusal (placementRefusal_deadlock hroom ?_ ?_)
  · exact (State.renewed_openTicketCount s i i).trans_lt htickets
  · have hsame : waitPairs s.tables.claims (ups ++ upgradeEntry i w n c (issuedTicket s.tables) :: cls)
        = waitPairs s.tables.claims (ups ++ upgradeEntry i w n c t :: cls) :=
      waitPairs_of_unticketed _ (by simp only [List.map_append, List.map_cons]; rfl)
    rw [State.renewed_claims, State.renewed_queue, hruns.placeWaiter_upgradeEntry, hsame]
    exact hasCycle_waitPairs_iff.mpr h

end Step5

/-- Settles O17: the grant test clear, and no cycle closed. -/
theorem upgradeGrantedAtOnceMakesTheRecordExclusive : Obligations.UpgradeGrantedAtOnceMakesTheRecordExclusive := by
  unfold Obligations.UpgradeGrantedAtOnceMakesTheRecordExclusive
  intro s i w n c ups cls h hruns hheld ht hclear hfree
  have hj : judgeUpgrade s.config i w (s.renewed i) = ({ s.renewed i with
      claims := upgradedClaims s.tables.claims n c }, .plain .granted (BitVec.ofNat 16 n.val)) := by
    rw [judgeUpgrade_of_shared (tb := s.renewed i) hheld ht, judgeUpgradeStep5_clear hruns hclear,
      if_neg (by rw [hasCycle_waitPairs_eq_false_iff.mpr hfree]; exact nofun)]
  obtain ⟨t, hexec, htables, hdone⟩ := exec_of_judged upgradeArm h hj
  refine ⟨t, hexec, hdone, ?_, ?_⟩ <;> rw [htables]
  have hrecord : { c with mode := .exclusive, upgradeTicket := none } = { c with mode := .exclusive } := by rw [← ht]
  rw [← hrecord]
  exact Claims.onlyChanged_put _ n _

/-- Settles O18: the named record's refusals, the cycle that the grant closes, and those of the queue. -/
theorem upgradeRefusalsFollowTheNamedRecord : Obligations.UpgradeRefusalsFollowTheNamedRecord := by
  unfold Obligations.UpgradeRefusalsFollowTheNamedRecord
  intro s i w o ups cls h hruns hrefused
  refine exec_of_unchanged upgradeArm h ?_
  have hoffered : ∀ {n c}, NamesHeld s.tables.claims i w n c .shared → c.upgradeTicket = none →
      Contends s.tables.claims ups (some n) .exclusive c.span → waitLimit w ≠ 0 →
      judgeUpgrade s.config i w (s.renewed i)
        = offerWaiter (s.renewed i) (upgradeEntry i w n c (issuedTicket s.tables)) := by
    intro n c hheld ht hc hwait
    rw [judgeUpgrade_of_shared (tb := s.renewed i) hheld ht, judgeUpgradeStep5_contends hruns hc, if_neg hwait]
  cases hrefused with
  | name _ hname => exact judged_of_nameRefusal (tb := s.renewed i) hname (by simp)
  | exclusive n c hheld => exact judgeUpgrade_of_exclusive (tb := s.renewed i) hheld
  | draining n c stage hdrains => exact judgeUpgrade_of_draining (tb := s.renewed i) hdrains
  | ticket n c t hheld ht => exact judgeUpgrade_of_ticket (tb := s.renewed i) hheld ht
  | cycle n c hheld ht hclear hcycle =>
    rw [judgeUpgrade_of_shared (tb := s.renewed i) hheld ht, judgeUpgradeStep5_clear hruns hclear, hruns.split]
    exact if_pos (hasCycle_waitPairs_iff.mpr hcycle)
  | conflict n c hheld ht hc hwait =>
    rw [judgeUpgrade_of_shared (tb := s.renewed i) hheld ht, judgeUpgradeStep5_contends hruns hc, if_pos hwait]
  | queueFull n c hheld ht hc hwait hfull =>
    rw [hoffered hheld ht hc hwait]
    exact offerWaiter_of_refusal (placementRefusal_queueFull (hruns.split ▸ hfull : 64 ≤ s.tables.queue.length))
  | tickets n c hheld ht hc hwait hroom h8 =>
    rw [hoffered hheld ht hc hwait]
    exact offerWaiter_of_refusal (placementRefusal_tickets (hruns.split ▸ hroom : s.tables.queue.length < 64)
      (h8.trans (State.renewed_openTicketCount s i i).ge))
  | deadlock n c t hheld ht hc hwait hroom h8 hcycle =>
    rw [hoffered hheld ht hc hwait]
    exact offerWaiter_upgradeEntry_deadlock hruns (hruns.split ▸ hroom) h8 hcycle

/-- Settles O19: the place between the runs, and the ticket on the record. -/
theorem upgradeQueuedJoinsTheUpgradeRun : Obligations.UpgradeQueuedJoinsTheUpgradeRun := by
  unfold Obligations.UpgradeQueuedJoinsTheUpgradeRun
  intro s i w n c ups cls h hruns hheld ht hc hwait hroom htickets hfree
  have hplace := hruns.placeWaiter_upgradeEntry i w n c (issuedTicket s.tables)
  have hplaced : placementRefusal (s.renewed i) (upgradeEntry i w n c (issuedTicket s.tables)) = none := by
    refine placementRefusal_eq_none.mpr ⟨hroom, (State.renewed_openTicketCount s i i).trans_lt htickets, ?_⟩
    rw [State.renewed_queue, hplace]
    exact hasCycle_waitPairs_eq_false_iff.mpr hfree
  have hj : judgeUpgrade s.config i w (s.renewed i)
      = (queueWaiter (s.renewed i) (upgradeEntry i w n c (issuedTicket s.tables)),
        .plain .queued (issuedTicket s.tables)) := by
    rw [judgeUpgrade_of_shared (tb := s.renewed i) hheld ht, judgeUpgradeStep5_contends hruns hc, if_neg hwait,
      offerWaiter_of_placed hplaced]
    rfl
  obtain ⟨t, hexec, htables, hdone⟩ := exec_of_judged upgradeArm h hj
  refine ⟨t, hexec, hdone, ?_, fun m => ?_⟩ <;> rw [htables]
  · rw [queueWaiter, State.renewed_queue, hplace]
    rfl
  · have hget : (queueWaiter (s.renewed i) (upgradeEntry i w n c (issuedTicket s.tables))).claims.get m = _ :=
      setUpgradeTicket_get s.tables.claims (upgradeEntry i w n c (issuedTicket s.tables)) _ m
    have hown : (upgradeEntry i w n c (issuedTicket s.tables)).ownRecord = some n := rfl
    rw [hget, hown]
    by_cases hm : m = n
    · subst hm
      rw [if_pos rfl, if_pos rfl, hheld.record]
      rfl
    · rw [if_neg hm, if_neg fun he => hm (Option.some.inj he).symm]

/-! ### DOWNGRADE and RELEASE (R38 to R41) -/

theorem downgradeArm : (Instr.downgrade, RequestKind.downgrade, judgeDowngrade) ∈ initiatorArms := by
  simp [initiatorArms]

theorem releaseArm : (Instr.release, RequestKind.release, judgeRelease) ∈ initiatorArms := by
  simp [initiatorArms]

/-- Settles O20: DOWNGRADE's judge by the named record. -/
theorem downgradeStartsADrainOrIsRefused : Obligations.DowngradeStartsADrainOrIsRefused := by
  unfold Obligations.DowngradeStartsADrainOrIsRefused
  intro s i w h
  refine ⟨fun n c hheld => ?_, fun o ho => exec_of_unchanged downgradeArm h ?_⟩
  · obtain ⟨t, hexec, htables, hdone⟩ := exec_of_judged downgradeArm h
      (judgeDowngrade_of_exclusive (tb := s.renewed i) hheld)
    refine ⟨t, hexec, hdone, ?_, ?_⟩ <;> rw [htables]
    · rfl
    · exact Claims.onlyChanged_put _ n _
  · rcases ho with hname | ⟨rfl, n, c, hheld⟩ | ⟨rfl, n, c, stage, hdrains⟩
    · exact judged_of_nameRefusal (tb := s.renewed i) hname (by simp)
    · exact judgeDowngrade_of_shared (tb := s.renewed i) hheld
    · exact judgeDowngrade_of_draining (tb := s.renewed i) hdrains

/-- Settles O21: RELEASE's judge by the named record, a HELD SHARED one apart. -/
theorem releaseDrainsAnExclusiveRecordOrIsRefused : Obligations.ReleaseDrainsAnExclusiveRecordOrIsRefused := by
  unfold Obligations.ReleaseDrainsAnExclusiveRecordOrIsRefused
  intro s i w h
  refine ⟨fun n c hheld => ?_, fun n c stage hdrains => ?_, fun o hname => exec_of_unchanged releaseArm h ?_⟩
  · obtain ⟨t, hexec, htables, hdone⟩ := exec_of_judged releaseArm h
      (judgeRelease_of_exclusive (tb := s.renewed i) hheld)
    refine ⟨t, hexec, hdone, ?_, ?_⟩ <;> rw [htables]
    · rfl
    · exact Claims.onlyChanged_put _ n _
  · obtain ⟨t, hexec, htables, hdone⟩ := exec_of_judged releaseArm h
      (judgeRelease_of_draining (tb := s.renewed i) hdrains)
    refine ⟨t, hexec, hdone, ?_, ?_⟩ <;> rw [htables]
    exact Claims.onlyChanged_put _ n _
  · exact judged_of_nameRefusal (tb := s.renewed i) hname (by simp)

/-- A notice after the lease restart, in the words of one record set. -/
theorem appendNotice_renewed (s : State) (i : Initiator) (n : Notice) :
    appendNotice (s.renewed i).inits i n = s.tables.inits.set i ⟨.active s.config.leaseLength,
      s.tables.inits[i].generation, s.tables.inits[i].notices ++ [n]⟩ := by
  rw [appendNotice, State.renewed_get_self]
  simp [State.renewed]

/-- Settles O22: the record freed and its waiter withdrawn, before the grant pass. -/
theorem releaseOfASharedRecordFreesIt : Obligations.ReleaseOfASharedRecordFreesIt := by
  unfold Obligations.ReleaseOfASharedRecordFreesIt
  intro s i w n c h hheld
  obtain ⟨t, hexec, htables, hdone⟩ := exec_of_judged releaseArm h (judgeRelease_of_shared (tb := s.renewed i) hheld)
  have hclaims : ∀ t, (withdrawWaiter { s.renewed i with claims := s.tables.claims.free n } i c.tag t).claims
      = s.tables.claims.free n := fun t => by cases t <;> rfl
  refine ⟨t, withdrawWaiter { s.renewed i with claims := s.tables.claims.free n } i c.tag c.upgradeTicket, hexec, hdone,
    htables, ?_, fun ht => ?_, fun k ht => ?_⟩
  · rw [hclaims]
    exact Claims.onlyChanged_free _ n
  · rw [ht]
    rfl
  · rw [ht, withdrawWaiter, appendNotice_renewed]
    have hfilter : ((s.renewed i).queue.filter fun v => !decide (v.ticket = k))
        = s.tables.queue.filter fun v => decide (v.ticket ≠ k) := List.filter_congr fun _ _ => by simp
    rw [hfilter]

/-! ### CANCEL (R59) -/

theorem cancelArm : (Instr.cancel, RequestKind.cancel, judgeCancel) ∈ initiatorArms := by
  simp [initiatorArms]

theorem ticketOperand_of_lt {w : RequestWords} (h : w.w2.toNat < 65536) : ticketOperand w = some (w.w2.setWidth 16) :=
  if_pos h

theorem toNat_setWidth_of_lt {x : Word} (h : x.toNat < 65536) : (x.setWidth 16).toNat = x.toNat := by
  rw [BitVec.toNat_setWidth, Nat.mod_eq_of_lt h]

/-- The waiter that a CANCEL names is found. -/
theorem findWaiter_of_mem {queue : List Waiter} {v : Waiter} (hv : v ∈ queue) (h0 : v.ticket ≠ 0)
    (hone : ∀ x ∈ queue, x.ticket = v.ticket → x = v) : findWaiter queue v.initiator v.ticket = some v := by
  rw [findWaiter, if_neg h0]
  cases hf : queue.find? fun x => decide (x.ticket = v.ticket) && decide (x.initiator = v.initiator) with
  | none => simpa using List.find?_eq_none.mp hf v hv
  | some x =>
    have hx := List.find?_some hf
    rw [Bool.and_eq_true, decide_eq_true_eq] at hx
    rw [hone x (List.mem_of_find?_eq_some hf) hx.1]

theorem findWaiter_eq_none {queue : List Waiter} {i : Initiator} {t : Ticket}
    (h : t = 0 ∨ ∀ v ∈ queue, v.initiator = i → v.ticket ≠ t) : findWaiter queue i t = none := by
  unfold findWaiter
  split
  · rfl
  · rename_i h0
    refine List.find?_eq_none.mpr fun v hv => ?_
    simpa using fun ht hi => h.resolve_left h0 v hv hi ht

/-- The queue without the one waiter of a ticket. -/
theorem filter_ticket_ne {before after : List Waiter} {v : Waiter} (hx : ∀ x ∈ before ++ after, x.ticket ≠ v.ticket) :
    ((before ++ v :: after).filter fun x => !decide (x.ticket = v.ticket)) = before ++ after := by
  have hkeep : ∀ l : List Waiter, (∀ x ∈ l, x.ticket ≠ v.ticket) →
      (l.filter fun x => !decide (x.ticket = v.ticket)) = l :=
    fun l hl => List.filter_eq_self.mpr fun x hxl => by simpa using hl x hxl
  rw [List.filter_append, List.filter_cons_of_neg (by simp), hkeep _ fun x h => hx x (List.mem_append_left _ h),
    hkeep _ fun x h => hx x (List.mem_append_right _ h)]

/-- Settles O23: CANCEL's judge by the waiter that the ticket finds. -/
theorem cancelRemovesTheWaiter : Obligations.CancelRemovesTheWaiter := by
  unfold Obligations.CancelRemovesTheWaiter
  intro s i w h
  refine ⟨fun before after v hq hi h0 ht hx => ?_, fun hlt hnone => exec_of_unchanged cancelArm h ?_,
    fun hbig => exec_of_unchanged cancelArm h ?_⟩
  · have hlt : w.w2.toNat < 65536 := ht ▸ v.ticket.isLt
    have hop : ticketOperand w = some v.ticket := by
      rw [ticketOperand_of_lt hlt]
      exact congrArg some (BitVec.eq_of_toNat_eq ((toNat_setWidth_of_lt hlt).trans ht.symm))
    have hone : ∀ x ∈ s.tables.queue, x.ticket = v.ticket → x = v := by
      intro x hxq hxt
      rw [hq] at hxq
      simp only [List.mem_append, List.mem_cons] at hxq
      rcases hxq with hxb | rfl | hxa
      · exact absurd hxt (hx x (List.mem_append_left _ hxb))
      · rfl
      · exact absurd hxt (hx x (List.mem_append_right _ hxa))
    have hfind : findWaiter (s.renewed i).queue i v.ticket = some v :=
      hi ▸ findWaiter_of_mem (by rw [State.renewed_queue, hq]; simp) h0 hone
    have hj : judgeCancel s.config i w (s.renewed i) = (cancelTables (s.renewed i) v, .bare .done) := by
      simp only [judgeCancel, hop, hfind]
    obtain ⟨t, hexec, htables, hdone⟩ := exec_of_judged cancelArm h hj
    refine ⟨t, { s.renewed i with
      claims := setUpgradeTicket s.tables.claims v none
      queue := before ++ after }, hexec, hdone, ?_, rfl, fun n => setUpgradeTicket_get _ v none n⟩
    rw [htables, cancelTables, State.renewed_queue, hq, filter_ticket_ne hx]
    rfl
  · have hfind : findWaiter (s.renewed i).queue i (w.w2.setWidth 16) = none := by
      refine findWaiter_eq_none (hnone.imp (fun h0 => ?_) fun hall v hv hi hvt => hall v hv hi ?_)
      · exact BitVec.eq_of_toNat_eq ((toNat_setWidth_of_lt hlt).trans h0)
      · rw [hvt, toNat_setWidth_of_lt hlt]
    simp only [judgeCancel, ticketOperand_of_lt hlt, hfind]
  · have hop : ticketOperand w = none := if_neg (by omega)
    simp only [judgeCancel, hop]

/-! ### TAKE-NOTICE (R69) -/

theorem takeNoticeArm : (Instr.takeNotice, RequestKind.takeNotice, judgeTakeNotice) ∈ initiatorArms := by
  simp [initiatorArms]

theorem judgeTakeNotice_nil {cfg : ConfigRegs} {i : Initiator} {w : RequestWords} {tb : Tables}
    (h : tb.inits[i].notices = []) : judgeTakeNotice cfg i w tb = (tb, .bare .empty) := by
  rw [judgeTakeNotice, h]

theorem judgeTakeNotice_cons {cfg : ConfigRegs} {i : Initiator} {w : RequestWords} {tb : Tables} {n : Notice}
    {rest : List Notice} (h : tb.inits[i].notices = n :: rest) : judgeTakeNotice cfg i w tb
      = ({ tb with inits := tb.inits.set i { tb.inits[i] with notices := rest } },
        ⟨.done, n.ticket, #v[noticeWord n, 0, 0, 0, 0, 0, 0, 0, 0]⟩) := by
  rw [judgeTakeNotice, h]

theorem noticeWord_outcome (n : Notice) : bitField 0 2 (noticeWord n) = n.outcome.code := by
  have hcode : n.outcome.code < 2 ^ 2 := by cases n.outcome <;> simp [NoticeOutcome.code]
  rw [noticeWord, bitField_or, bitField_or, bitField_place_of_lt (by decide) hcode, bitField_place_apart _ (by decide),
    bitField_place_apart _ (by decide), Nat.or_zero, Nat.or_zero]

theorem noticeWord_claimNumber (n : Notice) : bitField 8 8 (noticeWord n) = n.outcome.claimNumber := by
  have hnumber : n.outcome.claimNumber < 2 ^ 8 := by
    cases n.outcome with
    | granted m => exact m.isLt
    | expired => decide
    | withdrawn => decide
  rw [noticeWord, bitField_or, bitField_or, bitField_place_apart _ (by decide), bitField_place_of_lt (by decide) hnumber,
    bitField_place_apart _ (by decide), Nat.zero_or, Nat.or_zero]

theorem noticeWord_tag (n : Notice) : bitField 16 16 (noticeWord n) = n.tag.toNat := by
  rw [noticeWord, bitField_or, bitField_or, bitField_place_apart _ (by decide), bitField_place_apart _ (by decide),
    bitField_place_of_lt (by decide) n.tag.isLt, Nat.zero_or, Nat.zero_or]

theorem noticeWord_onlyBits (n : Notice) : OnlyBits (noticeWord n) 0xFFFFFF03 :=
  onlyBits_or (onlyBits_or (onlyBits_place _ (by decide)) (onlyBits_place _ (by decide))) (onlyBits_place _ (by decide))

/-- A vector of one word and zeros. -/
theorem sole_word_get (a : Word) {k : Fin 9} (h : k ≠ 0) : (#v[a, 0, 0, 0, 0, 0, 0, 0, 0] : Vector Word 9)[k] = 0 := by
  fin_cases k
  · exact absurd rfl h
  all_goals rfl

/-- Settles O24: the head of the list, and the fields of its word. -/
theorem takeNoticeReturnsTheOldest : Obligations.TakeNoticeReturnsTheOldest := by
  unfold Obligations.TakeNoticeReturnsTheOldest
  intro s i w h
  have hsame : (s.renewed i).inits[i].notices = s.tables.inits[i].notices := by rw [State.renewed_get_self]
  refine ⟨fun hnone => exec_of_unchanged takeNoticeArm h (judgeTakeNotice_nil (hsame.trans hnone)), fun n rest hn => ?_⟩
  obtain ⟨t, hexec, htables, hdone⟩ := exec_of_judged takeNoticeArm h (judgeTakeNotice_cons (hsame.trans hn))
  refine ⟨t, _, hexec, hdone, ?_, rfl, rfl, fun m hm => ?_, fun he => ?_, fun hw => ?_, noticeWord_tag n,
    noticeWord_onlyBits n, fun k => sole_word_get _⟩
  · rw [htables, State.renewed_get_self]
    simp [State.renewed]
  · exact ⟨(noticeWord_outcome n).trans (by rw [hm]; rfl), (noticeWord_claimNumber n).trans (by rw [hm]; rfl)⟩
  · exact ⟨(noticeWord_outcome n).trans (by rw [he]; rfl), (noticeWord_claimNumber n).trans (by rw [he]; rfl)⟩
  · exact ⟨(noticeWord_outcome n).trans (by rw [hw]; rfl), (noticeWord_claimNumber n).trans (by rw [hw]; rfl)⟩

end Sys2Proof.Machine

/-! PROOF. LOOKUP and the inspections (R138 to R146) and CLEAR-CAPTURE (R133, R135): the judges' replies, and the fields of
the result words that each fills. -/

namespace Sys2Proof.Machine

/-! ### LOOKUP (R138 to R140) -/

/-- A request past the gate completes with the answer of its judge. -/
theorem exec_of_passed {c : Instr} {k : RequestKind} {judge : InitiatorJudge} (harm : (c, k, judge) ∈ initiatorArms)
    {s : State} {i : Initiator} {w : RequestWords} (h : s.Takes (.initiator i) k w)
    (hg : gate s.dirState s.tables.inits[i].state k = none) {tb : Tables} {r : Reply}
    (hj : judge s.config i w (s.afterTake i) = (tb, r)) :
    ∃ t, exec c s = .next t ∧ CompletedInitiator { s with tables := tb } t i r := by
  have hjudged : s.judgeInitiator k judge i w = (tb, r) := by
    rw [State.judgeInitiator, hg, State.leaseRestarted_eq, ← hj]
  refine ⟨_, exec_of_initiatorArm harm s, ?_⟩
  rw [takeInitiator_of_takes h, hjudged]
  exact completedInitiator_complete _ i r

theorem lookupArm : (Instr.lookup, RequestKind.lookup, judgeLookup) ∈ initiatorArms := by
  simp [initiatorArms]

theorem lookupSelected_eq (claims : Claims) (span : Span) (cursor : Nat) : lookupSelected claims span cursor
    = claims.filter fun e => decide (cursor ≤ e.1.val ∧ span.Meets e.2.span) :=
  List.filter_congr fun e _ => by
    rw [Bool.eq_iff_iff, Bool.and_eq_true, decide_eq_true_eq, decide_eq_true_eq, Span.overlaps_iff]

/-- The next cursor is a claim number or one after it (R140). -/
theorem lookupNext_le (returned : Claims) : lookupNext returned ≤ 256 := by
  unfold lookupNext
  split
  · rename_i e _
    exact e.1.isLt
  · exact le_rfl

/-- The count and the cursor of a LOOKUP stand apart in the primary value (R151). -/
theorem lookupPrimary_toNat {count next : Nat} (hc : count ≤ 4) (hn : next ≤ 256) :
    (lookupPrimary count next).toNat = count + next * 128 := by
  rw [lookupPrimary, BitVec.toNat_ofNat]
  omega

section Summaries

variable (returned : Claims)

theorem summaryPlace_some {n : Nat} {number : ClaimNo} {c : Claim} (h : returned[n]? = some (number, c)) :
    summaryPlace returned n = (summaryWordA c, summaryWordB c, place (8 * n) 8 number.val) := by
  rw [summaryPlace, h]

theorem summaryPlace_none {n : Nat} (h : returned[n]? = none) : summaryPlace returned n = (0, 0, 0) := by
  rw [summaryPlace, h]

/-- The byte of one place reads 0 at the others. -/
theorem summaryPlace_byte_apart {j k : Nat} (h : j ≠ k) : bitField (8 * k) 8 (summaryPlace returned j).2.2 = 0 := by
  unfold summaryPlace
  split
  · exact bitField_place_apart _ (by omega)
  · exact bitField_zero _ _

theorem lookupRecords_words {k : Nat} (hk : k < 4) :
    (lookupRecords returned)[2 * k] = (summaryPlace returned k).1
      ∧ (lookupRecords returned)[2 * k + 1] = (summaryPlace returned k).2.1 := by
  interval_cases k <;> exact ⟨rfl, rfl⟩

theorem lookupRecords_bytes : (lookupRecords returned)[8] = (summaryPlace returned 0).2.2
    ||| (summaryPlace returned 1).2.2 ||| (summaryPlace returned 2).2.2 ||| (summaryPlace returned 3).2.2 := rfl

theorem lookupRecords_byte {k : Nat} (hk : k < 4) : bitField (8 * k) 8 (lookupRecords returned)[8]
    = bitField (8 * k) 8 (summaryPlace returned k).2.2 := by
  have hapart : ∀ j, j ≠ k → bitField (8 * k) 8 (summaryPlace returned j).2.2 = 0 :=
    fun j hj => summaryPlace_byte_apart returned hj
  rw [lookupRecords_bytes, bitField_or, bitField_or, bitField_or]
  interval_cases k
  · rw [hapart 1 (by decide), hapart 2 (by decide), hapart 3 (by decide), Nat.or_zero, Nat.or_zero, Nat.or_zero]
  · rw [hapart 0 (by decide), hapart 2 (by decide), hapart 3 (by decide), Nat.zero_or, Nat.or_zero, Nat.or_zero]
  · rw [hapart 0 (by decide), hapart 1 (by decide), hapart 3 (by decide), Nat.zero_or, Nat.zero_or, Nat.or_zero]
  · rw [hapart 0 (by decide), hapart 1 (by decide), hapart 2 (by decide), Nat.zero_or, Nat.zero_or, Nat.zero_or]

end Summaries

theorem Mode.code_lt (m : Mode) : m.code < 2 := by
  cases m <;> decide

theorem Phase.code_lt (p : Phase) : p.code < 8 := by
  cases p <;> simp [Phase.code]

theorem Phase.stageCode_lt (p : Phase) : p.stageCode < 4 := by
  unfold Phase.stageCode
  split <;> decide

/-- The fields of the first summary word. -/
theorem summaryWordA_fields (c : Claim) :
    bitField 0 20 (summaryWordA c) = c.span.first % 1048576 ∧ bitField 20 3 (summaryWordA c) = c.holder.val
      ∧ bitField 23 1 (summaryWordA c) = c.mode.code ∧ bitField 24 3 (summaryWordA c) = c.phase.code
      ∧ bitField 28 2 (summaryWordA c) = c.phase.stageCode := by
  simp [summaryWordA, bitField_place_self, bitField_place_apart, Nat.mod_eq_of_lt c.holder.isLt,
    Nat.mod_eq_of_lt c.mode.code_lt, Nat.mod_eq_of_lt c.phase.code_lt, Nat.mod_eq_of_lt c.phase.stageCode_lt]

theorem summaryWordB_fields (c : Claim) :
    bitField 0 16 (summaryWordB c) = (c.span.count - 1) % 65536 ∧ bitField 16 16 (summaryWordB c) = c.tag.toNat := by
  simp [summaryWordB, bitField_place_self, bitField_place_apart, Nat.mod_eq_of_lt c.tag.isLt]

theorem summaryWordA_onlyBits (c : Claim) : OnlyBits (summaryWordA c) 0x37FFFFFF :=
  onlyBits_or (onlyBits_or (onlyBits_or (onlyBits_or (onlyBits_place _ (by decide)) (onlyBits_place _ (by decide)))
    (onlyBits_place _ (by decide))) (onlyBits_place _ (by decide))) (onlyBits_place _ (by decide))

theorem lookupReply_records (selected : Claims) :
    (lookupReply selected).records = lookupRecords (selected.take 4) := rfl

/-- What a LOOKUP returns at a place of its summaries. -/
theorem lookupReply_place {selected : Claims} {k : Nat} (hk : k < 4) :
    (∀ n c, selected[k]? = some (n, c) →
        (lookupReply selected).records[2 * k] = summaryWordA c
        ∧ (lookupReply selected).records[2 * k + 1] = summaryWordB c
        ∧ bitField (8 * k) 8 (lookupReply selected).records[8] = n.val)
      ∧ (selected[k]? = none → (lookupReply selected).records[2 * k] = 0
        ∧ (lookupReply selected).records[2 * k + 1] = 0 ∧ bitField (8 * k) 8 (lookupReply selected).records[8] = 0) := by
  obtain ⟨hA, hB⟩ := lookupRecords_words (selected.take 4) hk
  have hbyte := lookupRecords_byte (selected.take 4) hk
  have htake : (selected.take 4)[k]? = selected[k]? := List.getElem?_take_of_lt hk
  simp only [lookupReply_records, hA, hB, hbyte]
  refine ⟨fun n c h => ?_, fun h => ?_⟩
  · rw [summaryPlace_some _ (htake.trans h)]
    exact ⟨rfl, rfl, bitField_place_of_lt (by omega) n.isLt⟩
  · rw [summaryPlace_none _ (htake.trans h)]
    exact ⟨rfl, rfl, bitField_zero _ _⟩

/-- The primary value of a LOOKUP, field by field. -/
theorem lookupReply_primary (selected : Claims) :
    (lookupReply selected).primary.toNat % 8 = min 4 selected.length
      ∧ (lookupReply selected).primary.toNat / 8 % 16 = 0
      ∧ (lookupReply selected).primary.toNat / 128 = lookupNext (selected.take 4) := by
  have hcount : (selected.take 4).length = min 4 selected.length := List.length_take
  have hvalue : (lookupReply selected).primary.toNat = min 4 selected.length + lookupNext (selected.take 4) * 128 := by
    rw [← hcount]
    exact lookupPrimary_toNat (by omega) (lookupNext_le _)
  omega

/-- Settles O28: the judge's two refusals, and the reply read field by field. -/
theorem lookupReturnsTheFirstFourRecords : Obligations.LookupReturnsTheFirstFourRecords := by
  unfold Obligations.LookupReturnsTheFirstFourRecords
  intro s i w h hon hst
  have hgate : gate s.dirState s.tables.inits[i].state .lookup = none :=
    gate_eq_none_iff.mpr ⟨hon, hst.imp id fun hu => .inr ⟨hu, .inr rfl⟩⟩
  refine ⟨fun hcursor => exec_of_passed lookupArm h hgate (if_pos hcursor), fun hcursor hillegal =>
    exec_of_passed lookupArm h hgate ?_, fun hcursor hlegal selected hselected => ?_⟩
  · rw [judgeLookup, if_neg (Nat.not_lt.mpr hcursor), if_pos (Span.legal_eq_false_iff.mpr hillegal)]
  · have hlegal : (lookupSpan w).legal s.config.guardLimit ≠ false := by
      rw [Span.legal_iff.mpr hlegal]
      exact nofun
    have hj : judgeLookup s.config i w (s.afterTake i) = (s.afterTake i, lookupReply selected) := by
      rw [judgeLookup, if_neg (Nat.not_lt.mpr hcursor), if_neg hlegal, lookupSelected_eq, State.afterTake_claims,
        ← hselected]
    obtain ⟨t, hexec, hdone⟩ := exec_of_passed lookupArm h hgate hj
    obtain ⟨hcount, hzero, hnext⟩ := lookupReply_primary selected
    refine ⟨t, _, hexec, hdone, rfl, hcount, hzero, hnext, fun k hk => ⟨fun n c hsel => ?_, (lookupReply_place hk).2⟩⟩
    obtain ⟨hA, hB, hbyte⟩ := (lookupReply_place hk).1 n c hsel
    obtain ⟨hfirst, hholder, hmode, hphase, hstage⟩ := summaryWordA_fields c
    obtain ⟨hlength, htag⟩ := summaryWordB_fields c
    rw [hA, hB]
    exact ⟨hfirst, hholder, hmode, hphase, hstage, hlength, htag, hbyte, summaryWordA_onlyBits c⟩

/-! ### INSPECT-CLAIM (R143) -/

theorem inspectClaimArm : (Instr.inspectClaim, RequestKind.inspectClaim, judgeInspectClaim) ∈ managementArms := by
  simp [managementArms]

/-- Words 7 to 15 of INSPECT-CLAIM. -/
structure ClaimShown (records : Vector Word 9) (c : Claim) : Prop where
  phase : bitField 0 3 records[0] = c.phase.code
  mode : bitField 3 1 records[0] = c.mode.code
  stage : bitField 4 2 records[0] = c.phase.stageCode
  holder : bitField 8 3 records[0] = c.holder.val
  first : bitField 0 20 records[1] = c.span.first % 1048576
  count : bitField 0 17 records[2] = c.span.count % 131072
  tag : bitField 0 16 records[3] = c.tag.toNat
  ticket : bitField 16 16 records[3] = c.upgradeTicketCode
  bits : OnlyBits records[0] 0x73F ∧ OnlyBits records[1] 0xFFFFF ∧ OnlyBits records[2] 0x1FFFF
  rest : ∀ k : Fin 9, 3 < k.val → records[k] = 0

theorem Claim.upgradeTicketCode_lt (c : Claim) : c.upgradeTicketCode < 65536 := by
  unfold Claim.upgradeTicketCode
  split
  · rename_i t _
    exact t.isLt
  · decide

theorem claimRecords_shown (c : Claim) : ClaimShown (claimRecords (some c)) c where
  phase := by simp [claimRecords, bitField_place_self, bitField_place_apart, Nat.mod_eq_of_lt c.phase.code_lt]
  mode := by simp [claimRecords, bitField_place_self, bitField_place_apart, Nat.mod_eq_of_lt c.mode.code_lt]
  stage := by simp [claimRecords, bitField_place_self, bitField_place_apart, Nat.mod_eq_of_lt c.phase.stageCode_lt]
  holder := by simp [claimRecords, bitField_place_self, bitField_place_apart, Nat.mod_eq_of_lt c.holder.isLt]
  first := bitField_place_self _ (by decide)
  count := bitField_place_self _ (by decide)
  tag := by simp [claimRecords, bitField_place_self, bitField_place_apart, Nat.mod_eq_of_lt c.tag.isLt]
  ticket := by simp [claimRecords, bitField_place_self, bitField_place_apart, Nat.mod_eq_of_lt c.upgradeTicketCode_lt]
  bits := ⟨onlyBits_or (onlyBits_or (onlyBits_or (onlyBits_place _ (by decide)) (onlyBits_place _ (by decide)))
    (onlyBits_place _ (by decide))) (onlyBits_place _ (by decide)), onlyBits_place _ (by decide),
    onlyBits_place _ (by decide)⟩
  rest k hk := by
    obtain ⟨k, hlt⟩ := k
    have hk : 3 < k := hk
    interval_cases k <;> rfl

theorem noRecords_get (k : Fin 9) : noRecords[k] = 0 := by
  fin_cases k <;> rfl

/-! ### INSPECT-INITIATOR (R144) -/

theorem inspectInitiatorArm :
    (Instr.inspectInitiator, RequestKind.inspectInitiator, judgeInspectInitiator) ∈ managementArms := by
  simp [managementArms]

theorem InitState.code_lt (st : InitState) : st.code < 4 := by
  cases st <;> simp [InitState.code]

/-- Words 7 to 15 of INSPECT-INITIATOR. -/
structure InitiatorShown (records : Vector Word 9) (i : Initiator) (r : InitRecord) (held waiters : Nat) : Prop where
  number : bitField 0 3 records[0] = i.val
  state : bitField 4 2 records[0] = r.state.code
  generation : bitField 8 8 records[0] = r.generation.toNat
  lease : bitField 0 16 records[1] = r.state.leaseRemaining % 65536
  held : bitField 0 9 records[2] = held % 512
  waiters : bitField 16 4 records[2] = waiters % 16
  notices : bitField 24 4 records[2] = r.notices.length % 16
  bits : OnlyBits records[0] 0xFF37 ∧ OnlyBits records[1] 0xFFFF ∧ OnlyBits records[2] 0x0F0F01FF
  rest : ∀ k : Fin 9, 2 < k.val → records[k] = 0

theorem initiatorRecords_shown (i : Initiator) (r : InitRecord) (held waiters : Nat) :
    InitiatorShown (initiatorRecords i r held waiters) i r held waiters where
  number := by simp [initiatorRecords, bitField_place_self, bitField_place_apart, Nat.mod_eq_of_lt i.isLt]
  state := by simp [initiatorRecords, bitField_place_self, bitField_place_apart, Nat.mod_eq_of_lt r.state.code_lt]
  generation := by
    simp [initiatorRecords, bitField_place_self, bitField_place_apart, Nat.mod_eq_of_lt r.generation.isLt]
  lease := bitField_place_self _ (by decide)
  held := by simp [initiatorRecords, bitField_place_self, bitField_place_apart]
  waiters := by simp [initiatorRecords, bitField_place_self, bitField_place_apart]
  notices := by simp [initiatorRecords, bitField_place_self, bitField_place_apart]
  bits := ⟨onlyBits_or (onlyBits_or (onlyBits_place _ (by decide)) (onlyBits_place _ (by decide)))
    (onlyBits_place _ (by decide)), onlyBits_place _ (by decide),
    onlyBits_or (onlyBits_or (onlyBits_place _ (by decide)) (onlyBits_place _ (by decide)))
      (onlyBits_place _ (by decide))⟩
  rest k hk := by
    obtain ⟨k, hlt⟩ := k
    have hk : 2 < k := hk
    interval_cases k <;> rfl

/-! ### INSPECT-WAITER (R146) -/

theorem inspectWaiterArm : (Instr.inspectWaiter, RequestKind.inspectWaiter, judgeInspectWaiter) ∈ managementArms := by
  simp [managementArms]

theorem WaiterKind.code_lt (k : WaiterKind) : k.code < 2 := by
  cases k <;> simp [WaiterKind.code]

theorem WaiterKind.claimNumber_lt (k : WaiterKind) : k.claimNumber < 256 := by
  cases k with
  | claim m => exact Nat.zero_lt_succ _
  | upgrade n => exact n.isLt

/-- Words 7 to 15 of INSPECT-WAITER for a waiter. -/
structure WaiterShown (records : Vector Word 9) (position queueLength : Nat) (v : Waiter) : Prop where
  position : bitField 0 6 records[0] = position
  queueLength : bitField 8 7 records[0] = queueLength % 128
  kind : bitField 16 1 records[0] = v.kind.code
  mode : bitField 17 1 records[0] = v.mode.code
  initiator : bitField 24 3 records[0] = v.initiator.val
  first : bitField 0 20 records[1] = v.span.first % 1048576
  count : bitField 0 17 records[2] = v.span.count % 131072
  tag : bitField 0 16 records[3] = v.tag.toNat
  claimNumber : bitField 16 8 records[3] = v.kind.claimNumber
  remaining : records[4] = place 0 16 v.remainingCode
  bits : OnlyBits records[0] 0x07037F3F ∧ OnlyBits records[1] 0xFFFFF ∧ OnlyBits records[2] 0x1FFFF
    ∧ OnlyBits records[3] 0x00FFFFFF ∧ OnlyBits records[4] 0xFFFF
  rest : ∀ k : Fin 9, 4 < k.val → records[k] = 0

theorem waiterRecords_shown {position : Nat} (hp : position ≤ 63) (queueLength : Nat) (v : Waiter) :
    WaiterShown (waiterRecords position queueLength (some v)) position queueLength v where
  position := by
    simp [waiterRecords, bitField_place_self, bitField_place_apart, Nat.mod_eq_of_lt (Nat.lt_succ_of_le hp)]
  queueLength := by simp [waiterRecords, bitField_place_self, bitField_place_apart]
  kind := by simp [waiterRecords, bitField_place_self, bitField_place_apart, Nat.mod_eq_of_lt v.kind.code_lt]
  mode := by simp [waiterRecords, bitField_place_self, bitField_place_apart, Nat.mod_eq_of_lt v.mode.code_lt]
  initiator := by simp [waiterRecords, bitField_place_self, bitField_place_apart, Nat.mod_eq_of_lt v.initiator.isLt]
  first := bitField_place_self _ (by decide)
  count := bitField_place_self _ (by decide)
  tag := by simp [waiterRecords, bitField_place_self, bitField_place_apart, Nat.mod_eq_of_lt v.tag.isLt]
  claimNumber := by
    simp [waiterRecords, bitField_place_self, bitField_place_apart, Nat.mod_eq_of_lt v.kind.claimNumber_lt]
  remaining := rfl
  bits := ⟨onlyBits_or (onlyBits_or (onlyBits_or (onlyBits_or (onlyBits_place _ (by decide))
      (onlyBits_place _ (by decide))) (onlyBits_place _ (by decide))) (onlyBits_place _ (by decide)))
      (onlyBits_place _ (by decide)),
    onlyBits_place _ (by decide), onlyBits_place _ (by decide),
    onlyBits_or (onlyBits_place _ (by decide)) (onlyBits_place _ (by decide)), onlyBits_place _ (by decide)⟩
  rest k hk := by
    obtain ⟨k, hlt⟩ := k
    have hk : 4 < k := hk
    interval_cases k <;> rfl

/-! ### The inspections -/

theorem judgeInspectClaim_of_named {w : RequestWords} {n : ClaimNo} (h : Names w n) (s : State) :
    judgeInspectClaim w s = (s, ⟨.done, BitVec.ofNat 16 n.val, claimRecords (s.tables.claims.get n)⟩) := by
  rw [judgeInspectClaim, claimOperand_eq_some.mpr h]

theorem judgeInspectInitiator_of_named {w : RequestWords} {i : Initiator} (h : w.w2.toNat = i.val) (s : State) :
    judgeInspectInitiator w s = if s.tables.inits[i].state = .absent then (s, .bare .badRequest) else
      (s, ⟨.done, s.tables.inits[i].generation.setWidth 16,
        initiatorRecords i s.tables.inits[i] (heldCount s.tables.claims i) (waiterCount s.tables.queue i)⟩) := by
  rw [judgeInspectInitiator, initiatorOperand_eq_some.mpr h]

theorem judgeInspectWaiter_none {w : RequestWords} {s : State} (hw : w.w2.toNat ≤ 63)
    (h : s.tables.queue.length ≤ w.w2.toNat) : judgeInspectWaiter w s
      = (s, ⟨.empty, 0, waiterRecords w.w2.toNat s.tables.queue.length none⟩) := by
  rw [judgeInspectWaiter, if_neg (Nat.not_lt.mpr hw), List.getElem?_eq_none h]

theorem judgeInspectWaiter_some {w : RequestWords} {s : State} {v : Waiter} (hw : w.w2.toNat ≤ 63)
    (h : s.tables.queue[w.w2.toNat]? = some v) : judgeInspectWaiter w s
      = (s, ⟨.done, v.ticket, waiterRecords w.w2.toNat s.tables.queue.length (some v)⟩) := by
  rw [judgeInspectWaiter, if_neg (Nat.not_lt.mpr hw), h]

/-- Settles O29: each inspection leaves the state, and its words are those shown of the record, the initiator or the
waiter. -/
theorem inspectionReturnsTheTables : Obligations.InspectionReturnsTheTables := by
  unfold Obligations.InspectionReturnsTheTables
  refine ⟨fun s w h => ⟨fun hbig => ?_, fun n hn => ?_⟩, fun s w h => ⟨fun hbig => ?_, fun i hi => ⟨fun ha => ?_,
    fun ha => ?_⟩⟩, fun s w h => ⟨fun hbig => ?_, fun hw hlen => ?_, fun v hw hv => ?_⟩⟩
  · exact exec_of_managed_unchanged inspectClaimArm h (by rw [judgeInspectClaim, claimOperand_eq_none.mpr hbig])
  · obtain ⟨t, hexec, hdone⟩ := exec_of_managed_unchanged inspectClaimArm h (judgeInspectClaim_of_named hn s)
    refine ⟨t, _, hexec, hdone, rfl, rfl, fun hfree k => ?_, fun c hg => ?_⟩
    · rw [show s.tables.claims.get n = none from hfree]
      exact noRecords_get k
    · obtain ⟨hphase, hmode, hstage, hholder, hfirst, hcount, htag, hticket, ⟨h0, h1, h2⟩, hrest⟩ := claimRecords_shown c
      rw [hg]
      refine ⟨hphase, hmode, hstage, hholder, hfirst, hcount, htag, fun hnone => hticket.trans ?_,
        fun k hk => hticket.trans ?_, h0, h1, h2, hrest⟩
      · rw [Claim.upgradeTicketCode, hnone]
      · rw [Claim.upgradeTicketCode, hk]
  · exact exec_of_managed_unchanged inspectInitiatorArm h
      (by rw [judgeInspectInitiator, initiatorOperand_eq_none.mpr hbig])
  · exact exec_of_managed_unchanged inspectInitiatorArm h ((judgeInspectInitiator_of_named hi s).trans (if_pos ha))
  · obtain ⟨t, hexec, hdone⟩ := exec_of_managed_unchanged inspectInitiatorArm h
      ((judgeInspectInitiator_of_named hi s).trans (if_neg ha))
    obtain ⟨hnumber, hstate, hgen, hlease, hheld, hwaiters, hnotices, ⟨h0, h1, h2⟩, hrest⟩ := initiatorRecords_shown i
      s.tables.inits[i] (heldCount s.tables.claims i) (waiterCount s.tables.queue i)
    refine ⟨t, _, hexec, hdone, rfl, ?_, hnumber, hstate, hgen, hlease, hheld, hwaiters, hnotices, h0, h1, h2, hrest⟩
    rw [BitVec.toNat_setWidth, Nat.mod_eq_of_lt (s.tables.inits[i].generation.isLt.trans (by decide))]
  · exact exec_of_managed_unchanged inspectWaiterArm h (if_pos hbig)
  · obtain ⟨t, hexec, hdone⟩ := exec_of_managed_unchanged inspectWaiterArm h (judgeInspectWaiter_none hw hlen)
    exact ⟨t, _, hexec, hdone, rfl, rfl, bitField_place_self _ (by decide), bitField_place_apart _ (by decide),
      bitField_place_apart _ (by decide), fun k => sole_word_get _⟩
  · obtain ⟨t, hexec, hdone⟩ := exec_of_managed_unchanged inspectWaiterArm h (judgeInspectWaiter_some hw hv)
    obtain ⟨hposition, hlength, hkind, hmode, hinit, hfirst, hcount, htag, hnumber, hremaining, ⟨h0, h1, h2, h3, h4⟩,
      hrest⟩ := waiterRecords_shown hw s.tables.queue.length v
    refine ⟨t, _, hexec, hdone, rfl, rfl, hposition, hlength, hkind, hmode, hinit, hfirst, hcount, htag, hnumber,
      fun hnone => hremaining.trans ?_, fun k hk => ?_, h0, h1, h2, h3, h4, hrest⟩
    · rw [Waiter.remainingCode, hnone]
      exact place_zero 0 16
    · rw [hremaining, Waiter.remainingCode, hk]
      exact bitField_place_self _ (by decide)

/-! ### CLEAR-CAPTURE (R133, R135) -/

theorem clearCaptureArm : (Instr.clearCapture, RequestKind.clearCapture, judgeClearCapture) ∈ managementArms := by
  simp [managementArms]

theorem accessCode_lt (k : AccessKind) : accessCode k < 2 := by
  cases k <;> decide

theorem CaptureReason.code_lt (r : CaptureReason) : r.code < 16 := by
  cases r <;> simp [CaptureReason.code]

theorem CaptureReason.claimNumber_lt (r : CaptureReason) : r.claimNumber < 256 := by
  cases r <;> simp [CaptureReason.claimNumber]

theorem captureWordA_overflow (capture : Option Capture) (overflow : Bool) :
    bitField 1 1 (captureWordA capture overflow) = overflow.toNat := by
  cases capture <;> simp [captureWordA, bitField_placeBit_self, bitField_placeBit_apart, bitField_place_apart]

theorem captureWordA_onlyBits (capture : Option Capture) (overflow : Bool) :
    OnlyBits (captureWordA capture overflow) 0x00FF0F77 := by
  cases capture with
  | none => exact onlyBits_placeBit _ (by decide)
  | some c =>
    exact onlyBits_or (onlyBits_or (onlyBits_or (onlyBits_or (onlyBits_or (onlyBits_placeBit _ (by decide))
      (onlyBits_placeBit _ (by decide))) (onlyBits_place _ (by decide))) (onlyBits_place _ (by decide)))
      (onlyBits_place _ (by decide))) (onlyBits_place _ (by decide))

/-- The fields of a capture that is present. -/
theorem captureWordA_some (c : Capture) (overflow : Bool) :
    bitField 0 1 (captureWordA (some c) overflow) = 1
      ∧ bitField 2 1 (captureWordA (some c) overflow) = accessCode c.kind
      ∧ bitField 4 3 (captureWordA (some c) overflow) = c.initiator.val
      ∧ bitField 8 4 (captureWordA (some c) overflow) = c.reason.code
      ∧ bitField 16 8 (captureWordA (some c) overflow) = c.reason.claimNumber := by
  simp [captureWordA, bitField_placeBit_self, bitField_placeBit_apart, bitField_place_self, bitField_place_apart,
    Nat.mod_eq_of_lt (accessCode_lt c.kind), Nat.mod_eq_of_lt c.initiator.isLt, Nat.mod_eq_of_lt c.reason.code_lt,
    Nat.mod_eq_of_lt c.reason.claimNumber_lt]

theorem captureWordB_some (c : Capture) : (captureWordB (some c)).toNat = c.granule.toNat := by
  rw [captureWordB, place_zero_toNat (by decide), Nat.mod_eq_of_lt c.granule.isLt]

/-- Settles O33: the judge clears both and returns their words. -/
theorem clearCaptureReturnsWhatItClears : Obligations.ClearCaptureReturnsWhatItClears := by
  unfold Obligations.ClearCaptureReturnsWhatItClears
  intro s w h
  obtain ⟨t, hexec, -, hdone⟩ := exec_of_managed clearCaptureArm h (u := { s with capture := none, overflow := false })
    (r := ⟨.done, 0, captureRecords s.capture s.overflow⟩) rfl
  refine ⟨t, _, hexec, hdone, rfl, rfl, captureWordA_overflow _ _, captureWordA_onlyBits _ _, fun hnone => ?_,
    fun c hc => ?_, fun k hk => ?_⟩
  · rw [hnone]
    exact ⟨bitField_placeBit_apart _ (by decide), bitField_placeBit_apart _ (by decide), rfl⟩
  · rw [hc]
    obtain ⟨hpresent, hkind, hinit, hreason, hnumber⟩ := captureWordA_some c s.overflow
    exact ⟨hpresent, hkind, hinit, hreason, hnumber, captureWordB_some c⟩
  · obtain ⟨k, hlt⟩ := k
    have hk : 1 < k := hk
    interval_cases k <;> rfl

end Sys2Proof.Machine

/-! PROOF. Bus writes (R149 to R154, R161, R162, R172 to R174): what a write does to a mailbox, by START and by whether it
is BUSY, and each command of the window as one write at its offset. -/

namespace Sys2Proof.Machine

/-! ### The data of a write to word 0 -/

theorem withStart_getLsbD_zero (data : Word) : (data ||| 1).getLsbD 0 = true := by
  simp

theorem withStart_getLsbD (data : Word) {k : Nat} (hk : 0 < k) : (data ||| 1).getLsbD k = data.getLsbD k := by
  have hone : (1 : Word).getLsbD k = false := by
    change (1#32).getLsbD k = false
    rw [BitVec.getLsbD_one]
    simp [Nat.ne_of_gt hk]
  rw [BitVec.getLsbD_or, hone, Bool.or_false]

theorem withoutStart_getLsbD_zero (data : Word) : (withoutStart data).getLsbD 0 = false := by
  simp [withoutStart]

theorem withoutStart_getLsbD (data : Word) {k : Nat} (hk : 0 < k) (hlt : k < 32) :
    (withoutStart data).getLsbD k = data.getLsbD k := by
  rw [BitVec.getLsbD_eq_getElem hlt, BitVec.getLsbD_eq_getElem hlt, withoutStart_getElem]
  simp [Nat.ne_of_gt hk]

/-! ### A mailbox (R153, R154) -/

section Mailboxes

variable {mb : Mailbox} (data : Word)

theorem writeControl_submission (hb : mb.busy = false) : mb.writeControl (data ||| 1) = { mb with
    captured := some mb.request
    done := false
    error := false
    ovr := false
    cmpe := data.getLsbD 5 } := by
  simp only [Mailbox.writeControl, withStart_getLsbD_zero, hb, withStart_getLsbD data (k := 5) (by decide), if_true,
    Bool.false_eq_true, if_false]

theorem writeControl_lost (hb : mb.busy = true) : mb.writeControl (data ||| 1) = { mb with
    done := mb.done && !data.getLsbD 2
    error := mb.error && !data.getLsbD 3
    ovr := true
    cmpe := data.getLsbD 5 } := by
  simp only [Mailbox.writeControl, withStart_getLsbD_zero, hb, withStart_getLsbD data (k := 5) (by decide),
    withStart_getLsbD data (k := 2) (by decide), withStart_getLsbD data (k := 3) (by decide), if_true]

theorem writeControl_withoutStart : mb.writeControl (withoutStart data) = { mb with
    done := mb.done && !data.getLsbD 2
    error := mb.error && !data.getLsbD 3
    ovr := mb.ovr && !data.getLsbD 4
    cmpe := data.getLsbD 5 } := by
  simp only [Mailbox.writeControl, withoutStart_getLsbD_zero, withoutStart_getLsbD data (k := 5) (by decide) (by decide),
    withoutStart_getLsbD data (k := 2) (by decide) (by decide), withoutStart_getLsbD data (k := 3) (by decide) (by decide),
    withoutStart_getLsbD data (k := 4) (by decide) (by decide), Bool.false_eq_true, if_false]

theorem submits_withStart : mb.submits (data ||| 1) = !mb.busy := by
  rw [Mailbox.submits, withStart_getLsbD_zero, Bool.true_and]

theorem submits_withoutStart : mb.submits (withoutStart data) = false := by
  rw [Mailbox.submits, withoutStart_getLsbD_zero, Bool.false_and]

theorem writeWord_lost {word : Nat} (hb : mb.busy = true) (hw : word ≤ 5) :
    mb.writeWord word data = { mb with ovr := true } := by
  rw [Mailbox.writeWord, if_neg (by omega), if_pos hb]

/-- A word of an IDLE mailbox that is written: words 1 to 4 store the value, the others ignore it. -/
inductive StoredWord (request : RequestWords) : Nat → RequestWords → Prop where
  | one : StoredWord request 1 { request with w1 := data &&& 0x31F }
  | two : StoredWord request 2 { request with w2 := data }
  | three : StoredWord request 3 { request with w3 := data }
  | four : StoredWord request 4 { request with w4 := data }
  | other (word : Nat) (h : 5 ≤ word) : StoredWord request word request

theorem writeWord_stored {word : Nat} {r : RequestWords} (hb : mb.busy = false) (h : StoredWord data mb.request word r) :
    mb.writeWord word data = { mb with request := r } := by
  have hidle : ¬mb.busy = true := by rw [hb]; exact nofun
  cases h with
  | one => rw [Mailbox.writeWord, if_neg (by decide), if_neg hidle]; rfl
  | two => rw [Mailbox.writeWord, if_neg (by decide), if_neg hidle]; rfl
  | three => rw [Mailbox.writeWord, if_neg (by decide), if_neg hidle]; rfl
  | four => rw [Mailbox.writeWord, if_neg (by decide), if_neg hidle]; rfl
  | other _ hw =>
    rcases Nat.eq_or_lt_of_le hw with rfl | hw
    · rw [Mailbox.writeWord, if_neg (by decide), if_neg hidle]
      rfl
    · exact if_pos hw

theorem StoredWord.pos {request r : RequestWords} {word : Nat} (h : StoredWord data request word r) : word ≠ 0 := by
  cases h with
  | other _ hw => omega
  | _ => decide

end Mailboxes

/-! ### A write to word 0 -/

section Control

variable {s : State} {who : Initiator} (data : Word)

theorem busWrite_ownControl (h : OwnAccess s who) : busWrite who (mailboxBase (.initiator who)) data s
    = (writeInitiatorControl who data s).readyResponse := by
  rw [busWrite_own h (regionOf_mailboxBase_initiator who)]
  rfl

theorem busWrite_managementControl (h : ManagerAccess s who) (ho : NotOwnedByOther s who) :
    busWrite who (mailboxBase .management) data s = (writeManagementControl who data s).readyResponse := by
  rw [busWrite_management h regionOf_mailboxBase_management, writeManagement, ownedByOther_eq_false ho,
    if_neg Bool.false_ne_true, if_pos rfl]

theorem busWrite_ownWord {addr : BitVec 8} {word : Nat} (h : OwnAccess s who) (hlt : word < 16)
    (ha : addr.toNat = 64 + 16 * who.val + word) (hw : word ≠ 0) :
    busWrite who addr data s = { s with
      mailboxes := s.mailboxes.set who (s.mailboxes[who].writeWord word data)
      busOut := some ⟨false, none⟩ } := by
  rw [busWrite_own h (regionOf_mailbox hlt ha), writeInitiator, if_neg hw]
  rfl

theorem busWrite_managementWord {addr : BitVec 8} (h : ManagerAccess s who) (ho : NotOwnedByOther s who)
    (hlt : addr.toNat < 16) (hw : addr.toNat ≠ 0) :
    busWrite who addr data s = { s with
      mgmt := s.mgmt.writeWord addr.toNat data
      busOut := some ⟨false, none⟩ } := by
  rw [busWrite_management h (regionOf_management hlt), writeManagement, ownedByOther_eq_false ho,
    if_neg Bool.false_ne_true, if_neg hw]
  rfl

end Control

theorem exec_submission (who : Initiator) (m : MailboxId) (data : Word) (s : State) :
    exec (.submission who m data) s = .next (busWrite who (mailboxBase m) (data ||| 1) s) := rfl

theorem exec_windowWrite (who : Initiator) (addr : BitVec 8) (data : Word) (s : State) :
    exec (.windowWrite who addr data) s = .next (busWrite who addr data s) := rfl

/-- ATTENTION_ENABLE_WRITE and FLAG_CLEAR are one write. -/
theorem exec_controlWrite {c : Instr} {who : Initiator} {m : MailboxId} {data : Word}
    (hc : c ∈ [Instr.attentionEnableWrite who m data, .flagClear who m data]) (s : State) :
    exec c s = .next (busWrite who (mailboxBase m) (withoutStart data) s) := by
  simp only [List.mem_cons, List.not_mem_nil, or_false] at hc
  rcases hc with rfl | rfl <;> rfl

/-- Settles O34: START in the data, at an IDLE mailbox. -/
theorem submissionCapturesTheRequest : Obligations.SubmissionCapturesTheRequest := by
  unfold Obligations.SubmissionCapturesTheRequest
  constructor
  · intro s who data h hb
    rw [exec_submission, busWrite_ownControl _ h, writeInitiatorControl, writeControl_submission data hb,
      submits_withStart, hb, withStart_getLsbD data (by decide), submitted_eq_afterSubmission]
    rfl
  · intro s who data h ho hb
    rw [exec_submission, busWrite_managementControl _ h ho, writeManagementControl, writeControl_submission data hb,
      submits_withStart, hb, withStart_getLsbD data (by decide), withStart_getLsbD data (by decide),
      submitted_eq_afterSubmission, markSubmitted_of_notOwnedByOther ho]
    rfl

/-- Settles O35: START in the data, and the words 1 to 5, at a BUSY mailbox. -/
theorem writesToABusyMailboxAreLost : Obligations.WritesToABusyMailboxAreLost := by
  unfold Obligations.WritesToABusyMailboxAreLost
  refine ⟨fun s who data h hb => ?_, fun s who addr data h hb hlo hhi => ?_, fun s who data h ho hb => ?_,
    fun s who addr data h ho hb hlo hhi => ?_⟩
  · rw [exec_submission, busWrite_ownControl _ h, writeInitiatorControl, writeControl_lost data hb, submits_withStart, hb,
      withStart_getLsbD data (by decide)]
    rfl
  · have ha : addr.toNat = 64 + 16 * who.val + (addr.toNat - 64 - 16 * who.val) := by omega
    rw [exec_windowWrite, busWrite_ownWord data h (by omega) ha (by omega), writeWord_lost data hb (by omega)]
  · rw [exec_submission, busWrite_managementControl _ h ho, writeManagementControl, writeControl_lost data hb,
      submits_withStart, hb, withStart_getLsbD data (by decide), withStart_getLsbD data (by decide)]
    rfl
  · rw [exec_windowWrite, busWrite_managementWord data h ho (by omega) (by omega), writeWord_lost data hb hhi]

/-- Settles O36: no START in the data, so no submission. -/
theorem controlWriteWithoutStartSubmitsNothing : Obligations.ControlWriteWithoutStartSubmitsNothing := by
  unfold Obligations.ControlWriteWithoutStartSubmitsNothing
  constructor
  · intro s who data c h hc
    rw [exec_controlWrite hc, busWrite_ownControl _ h, writeInitiatorControl, writeControl_withoutStart,
      submits_withoutStart, withoutStart_getLsbD data (by decide) (by decide)]
    rfl
  · intro s who data c h ho hc
    rw [exec_controlWrite hc, busWrite_managementControl _ h ho, writeManagementControl, writeControl_withoutStart,
      submits_withoutStart, withoutStart_getLsbD data (by decide) (by decide),
      withoutStart_getLsbD data (by decide) (by decide)]
    rfl

/-! ### WINDOW_WRITE at the other words -/

/-- A word of the configuration region that is no register, and at 07Ch a write without the clearing bit. -/
theorem writeConfig_of_none {word : Nat} {data : Word} {s : State} (hr : configRegAt word = none)
    (h : word ≠ refusalWord ∨ data.getLsbD 0 = false) : writeConfig word data s = s := by
  rw [writeConfig, hr]
  refine if_neg fun ⟨hw, hd⟩ => ?_
  rcases h with h | h
  · exact h hw
  · rw [h] at hd
    cases hd

/-- Settles O37: the words of a mailbox, and the regions that ignore writes. -/
theorem windowWriteStoresRequestWordsAlone : Obligations.WindowWriteStoresRequestWordsAlone := by
  unfold Obligations.WindowWriteStoresRequestWordsAlone
  refine ⟨fun s who addr data word r h hb ha hr => ?_, fun s who addr data r h ho hb hr => ?_,
    fun s who addr data h ha => ?_, fun s who addr data h ha => ?_⟩
  · have hstored : StoredWord data s.mailboxes[who].request word r ∧ word < 16 := by
      rcases hr with ⟨rfl, rfl⟩ | ⟨rfl, rfl⟩ | ⟨rfl, rfl⟩ | ⟨rfl, rfl⟩ | ⟨h5, h15, rfl⟩
      · exact ⟨.one, by decide⟩
      · exact ⟨.two, by decide⟩
      · exact ⟨.three, by decide⟩
      · exact ⟨.four, by decide⟩
      · exact ⟨.other word h5, by omega⟩
    rw [exec_windowWrite, busWrite_ownWord data h hstored.2 ha hstored.1.pos, writeWord_stored data hb hstored.1]
  · have hstored : StoredWord data s.mgmt.request addr.toNat r ∧ addr.toNat < 16 := by
      rcases hr with ⟨rfl, rfl⟩ | ⟨rfl, rfl⟩ | ⟨rfl, rfl⟩ | ⟨rfl, rfl⟩ | ⟨h5, h15, rfl⟩
      · exact ⟨.one, by decide⟩
      · exact ⟨.two, by decide⟩
      · exact ⟨.three, by decide⟩
      · exact ⟨.four, by decide⟩
      · exact ⟨.other _ h5, by omega⟩
    rw [exec_windowWrite, busWrite_managementWord data h ho hstored.2 hstored.1.pos, writeWord_stored data hb hstored.1]
  · rw [exec_windowWrite, busWrite_ignored h]
    · rfl
    · by_cases hs : 32 ≤ addr.toNat ∧ addr.toNat < 48
      · exact .inl ⟨_, regionOf_status hs.1 hs.2⟩
      · exact .inr (regionOf_unused (by omega))
  · have hnone : configRegAt (addr.toNat - 16) = none
        ∧ (addr.toNat - 16 ≠ refusalWord ∨ data.getLsbD 0 = false) := by
      rcases ha with ⟨hlo, hhi⟩ | ⟨he, hd⟩
      · refine ⟨?_, .inl (by unfold refusalWord; omega)⟩
        generalize haddr : addr.toNat = a at hlo hhi
        interval_cases a <;> rfl
      · exact ⟨by rw [he]; rfl, .inr hd⟩
    rw [exec_windowWrite, busWrite_config h (regionOf_config (by omega) (by omega)), writeConfig_of_none hnone.1 hnone.2]
    rfl

/-! ### Writes without the right (R150, R161) -/

/-- The commands that write the window, each with its offset and its data. -/
theorem exec_busWrite {c : Instr} {who : Initiator} {m : MailboxId} {addr : BitVec 8} {reg : ConfigReg} {data : Word}
    (hc : c ∈ [Instr.submission who m data, .attentionEnableWrite who m data, .flagClear who m data,
      .windowWrite who addr data, .configWrite who reg data, .configRefusalClear who data]) (s : State) :
    ∃ a d, exec c s = .next (busWrite who a d s)
      ∧ (a = mailboxBase m ∨ a = addr ∨ a = BitVec.ofNat 8 (16 + configWord reg)
        ∨ a = BitVec.ofNat 8 (16 + refusalWord)) := by
  simp only [List.mem_cons, List.not_mem_nil, or_false] at hc
  rcases hc with rfl | rfl | rfl | rfl | rfl | rfl
  · exact ⟨_, _, rfl, .inl rfl⟩
  · exact ⟨_, _, rfl, .inl rfl⟩
  · exact ⟨_, _, rfl, .inl rfl⟩
  · exact ⟨_, _, rfl, .inr (.inl rfl)⟩
  · exact ⟨_, _, rfl, .inr (.inr (.inl rfl))⟩
  · exact ⟨_, _, rfl, .inr (.inr (.inr rfl))⟩

/-- The commands that write a mailbox. -/
theorem exec_mailboxWrite {c : Instr} {who : Initiator} {m : MailboxId} {addr : BitVec 8} {data : Word}
    (hc : c ∈ [Instr.submission who m data, .attentionEnableWrite who m data, .flagClear who m data,
      .windowWrite who addr data]) (s : State) :
    ∃ a d, exec c s = .next (busWrite who a d s) ∧ (a = mailboxBase m ∨ a = addr) := by
  simp only [List.mem_cons, List.not_mem_nil, or_false] at hc
  rcases hc with rfl | rfl | rfl | rfl
  · exact ⟨_, _, rfl, .inl rfl⟩
  · exact ⟨_, _, rfl, .inl rfl⟩
  · exact ⟨_, _, rfl, .inl rfl⟩
  · exact ⟨_, _, rfl, .inr rfl⟩

theorem exec_takeOwnership (who : Initiator) (s : State) :
    exec (.takeOwnership who) s = .next (readManagementWord0 who s) := rfl

theorem busRead_of_absent {s : State} {who : Initiator} (hr : s.inReset = false)
    (ha : s.tables.inits[who].state = .absent) (addr : BitVec 8) : s.busRead who addr = ⟨true, some 0⟩ := by
  have habsent : s.isAbsent who = true := decide_eq_true ha
  rw [State.busRead, hr, habsent, if_neg Bool.false_ne_true, if_pos rfl]

theorem busRead_of_present {s : State} {who : Initiator} (h : OwnAccess s who) (addr : BitVec 8) :
    s.busRead who addr = ⟨false, some (s.readWindow addr)⟩ := by
  have hpresent : s.isAbsent who = false := decide_eq_false h.present
  rw [State.busRead, h.running, hpresent, if_neg Bool.false_ne_true, if_neg Bool.false_ne_true]

theorem takesOwnership_iff {s : State} {who : Initiator} : s.takesOwnership who = true ↔
    OwnAccess s who ∧ s.config.managerSet.getLsbD who.val = true ∧ s.mgmt.busy = false ∧ s.ownership = none := by
  simp only [State.takesOwnership, Bool.and_eq_true, Bool.not_eq_true', State.isAbsent, decide_eq_false_iff_not,
    State.isManager, Option.isNone_iff_eq_none, and_assoc]
  exact ⟨fun ⟨hr, hp, hm, hb, ho⟩ => ⟨⟨hr, hp⟩, hm, hb, ho⟩, fun ⟨⟨hr, hp⟩, hm, hb, ho⟩ => ⟨hr, hp, hm, hb, ho⟩⟩

/-- Settles O38: the refused write, by what the writer lacks; and the management mailbox of another owner. -/
theorem writesWithoutTheRightChangeNothing : Obligations.WritesWithoutTheRightChangeNothing := by
  unfold Obligations.WritesWithoutTheRightChangeNothing
  refine ⟨⟨fun s who c m addr reg data ha hr hc => ?_, fun s who ha hr => ?_,
    fun s who i c addr data hne hlo hhi hc => ?_, fun s who c addr reg data hm haddr hc => ?_⟩,
    fun s who o c addr data h ho hne haddr hc => ?_⟩
  · obtain ⟨a, d, hexec, -⟩ := exec_busWrite hc s
    rw [hexec, busWrite_refused (.inr (.inl ha))]
    rfl
  · have hnot : ¬s.takesOwnership who = true := fun h => (takesOwnership_iff.mp h).1.present ha
    rw [exec_takeOwnership, readManagementWord0, busRead_of_absent hr ha, if_neg hnot]
  · obtain ⟨a, d, hexec, ha⟩ := exec_mailboxWrite hc s
    have hregion : ∃ word, regionOf a = .mailbox i word := by
      rcases ha with rfl | ha
      · exact ⟨0, regionOf_mailboxBase_initiator i⟩
      · rw [ha]
        exact ⟨addr.toNat - 64 - 16 * i.val, regionOf_mailbox (by omega) (by omega)⟩
    obtain ⟨word, hregion⟩ := hregion
    rw [hexec, busWrite_refused (.inr (.inr (by rw [hregion]; exact decide_eq_false hne)))]
    rfl
  · obtain ⟨a, d, hexec, ha⟩ := exec_busWrite hc s
    have hregion : ∃ word, regionOf a = .management word ∨ regionOf a = .config word := by
      rcases ha with rfl | ha | rfl | rfl
      · exact ⟨0, .inl rfl⟩
      · rw [ha]
        by_cases h16 : addr.toNat < 16
        · exact ⟨_, .inl (regionOf_management h16)⟩
        · exact ⟨_, .inr (regionOf_config (by omega) haddr)⟩
      · exact ⟨_, .inr (regionOf_configWord reg)⟩
      · exact ⟨_, .inr regionOf_refusalWord⟩
    obtain ⟨word, hregion⟩ := hregion
    have hright : s.mayWrite who (regionOf a) = false := by
      rcases hregion with hregion | hregion <;> rw [hregion] <;> exact hm
    rw [hexec, busWrite_refused (.inr (.inr hright))]
    rfl
  · obtain ⟨a, d, hexec, ha⟩ := exec_mailboxWrite hc s
    have hregion : ∃ word, regionOf a = .management word := by
      rcases ha with rfl | rfl
      · exact ⟨0, rfl⟩
      · exact ⟨_, regionOf_management haddr⟩
    obtain ⟨word, hregion⟩ := hregion
    rw [hexec, busWrite_management h hregion, writeManagement, ownedByOther_eq_true ho hne, if_pos rfl]
    rfl

/-! ### The configuration registers (R173, R174) -/

theorem exec_configWrite (who : Initiator) (reg : ConfigReg) (data : Word) (s : State) :
    exec (.configWrite who reg data) s = .next (busWrite who (BitVec.ofNat 8 (16 + configWord reg)) data s) := rfl

theorem busWrite_configReg {s : State} {who : Initiator} (h : ManagerAccess s who) (reg : ConfigReg) (data : Word) :
    busWrite who (BitVec.ofNat 8 (16 + configWord reg)) data s = (writeConfigReg reg data s).readyResponse := by
  rw [busWrite_config h (regionOf_configWord reg), writeConfig, configRegAt_configWord]

theorem or_one_eq (v : Nat) : v ||| 1 = 2 * (v / 2) + 1 := by
  refine Nat.eq_of_testBit_eq fun k => ?_
  cases k with
  | zero => simp
  | succ k => simp [Nat.testBit_succ, Nat.mul_add_div, Nat.or_div_two]

/-- The register written takes the value; of the manager set, bit 0 is taken as 1. -/
theorem config_set_value_self (c : ConfigRegs) {reg : ConfigReg} {v : Nat} (hv : configInRange reg v = true) :
    (c.set reg v).value reg = takenValue reg v := by
  have hrange := configInRange_iff.mp hv
  have hnot : ∀ r : ConfigReg, r ≠ .managerSet → takenValue r v = v := fun r hr => if_neg fun h => hr h.1
  cases reg with
  | unclaimedWrite =>
    have hle : v ≤ 1 := hrange.2
    interval_cases v <;> rfl
  | readThrough =>
    have hle : v ≤ 1 := hrange.2
    interval_cases v <;> rfl
  | managerSet =>
    have hle : v ≤ 255 := hrange.2
    have hvalue : (c.set .managerSet v).value .managerSet = v % 256 ||| 1 := by
      simp [ConfigRegs.set, ConfigRegs.value, BitVec.toNat_or]
    rw [hvalue, or_one_eq]
    unfold takenValue
    split <;> simp_all <;> omega
  | _ => exact Eq.symm (hnot _ (by decide))

theorem config_set_value_other (c : ConfigRegs) {reg other : ConfigReg} (v : Nat) (h : other ≠ reg) :
    (c.set reg v).value other = c.value other := by
  revert h
  cases reg <;> cases other <;> simp [ConfigRegs.set, ConfigRegs.value]

/-- Settles O41: the write in OFF and in range, the write refused, and the flag cleared. -/
theorem configurationIsWrittenInOffAlone : Obligations.ConfigurationIsWrittenInOffAlone := by
  unfold Obligations.ConfigurationIsWrittenInOffAlone
  refine ⟨fun s who reg data h hoff hlo hhi => ?_, fun s who reg data h hbad => ?_, fun s who data h => ?_⟩
  · have hrange := configInRange_iff.mpr ⟨hlo, hhi⟩
    refine ⟨_, exec_configWrite who reg data s, ?_⟩
    rw [busWrite_configReg h, writeConfigReg, if_pos ⟨hoff, hrange⟩]
    exact ⟨rfl, config_set_value_self s.config hrange, fun other hne => config_set_value_other s.config _ hne⟩
  · have hrefused : ¬(s.dirState = .off ∧ configInRange reg data.toNat = true) := by
      rintro ⟨hoff, hrange⟩
      obtain ⟨hlo, hhi⟩ := configInRange_iff.mp hrange
      rcases hbad with hon | hlow | hhigh
      · exact hon hoff
      · omega
      · omega
    rw [exec_configWrite, busWrite_configReg h, writeConfigReg, if_neg hrefused]
    rfl
  · have hexec : exec (.configRefusalClear who data) s
        = .next (busWrite who (BitVec.ofNat 8 (16 + refusalWord)) (data ||| 1) s) := rfl
    rw [hexec, busWrite_config h regionOf_refusalWord, writeConfig, configRegAt_refusalWord]
    dsimp only
    rw [if_pos ⟨rfl, withStart_getLsbD_zero data⟩]
    rfl

end Sys2Proof.Machine

/-! PROOF. Reads of the window (R149 to R151, R161, R173, R180): each word that a read finds, by its region, with its
fields; and the read of management word 0 that takes ownership. -/

namespace Sys2Proof.Machine

/-! ### Single bits of placed fields -/

@[simp] theorem placeBit_getElem_self {lo : Nat} (b : Bool) (h : lo < 32) : (placeBit lo b)[lo] = b := by
  rw [← BitVec.getLsbD_eq_getElem h, placeBit_getLsbD_self b h]

theorem place_getElem_apart {lo width v k : Nat} (hk : k < 32) (h : k < lo ∨ lo + width ≤ k) :
    (place lo width v)[k] = false := by
  rw [← BitVec.getLsbD_eq_getElem hk, place_getLsbD_apart h]

theorem placeBit_getElem_apart {lo k : Nat} (b : Bool) (hk : k < 32) (h : k < lo ∨ lo + 1 ≤ k) :
    (placeBit lo b)[k] = false :=
  place_getElem_apart hk h

/-! ### The mailboxes (R151) -/

theorem Mailbox.readWord_shown (mb : Mailbox) : WordsShown mb.readWord mb where
  request := ⟨rfl, rfl, rfl, rfl⟩
  unused := rfl
  result k := by
    fin_cases k <;> rfl

theorem WordsShown.congr {read read' : Nat → Word} {mb : Mailbox} (h : WordsShown read mb)
    (heq : ∀ n, 1 ≤ n → n < 16 → read' n = read n) : WordsShown read' mb where
  request := by
    obtain ⟨h1, h2, h3, h4⟩ := h.request
    exact ⟨(heq 1 (by decide) (by decide)).trans h1, (heq 2 (by decide) (by decide)).trans h2,
      (heq 3 (by decide) (by decide)).trans h3, (heq 4 (by decide) (by decide)).trans h4⟩
  unused := (heq 5 (by decide) (by decide)).trans h.unused
  result k := (heq (6 + k.val) (by omega) (by omega)).trans (h.result k)

theorem readWindow_managementWord (s : State) {n : Nat} (h1 : 1 ≤ n) (h16 : n < 16) :
    s.readWindow (BitVec.ofNat 8 n) = s.mgmt.readWord n := by
  have hn : (BitVec.ofNat 8 n).toNat = n := by rw [BitVec.toNat_ofNat]; omega
  rw [State.readWindow, regionOf_management (by omega), hn]
  obtain ⟨m, rfl⟩ := Nat.exists_eq_add_of_le' h1
  rfl

theorem readWindow_zero (s : State) : s.readWindow 0 = s.managementWord0 := rfl

theorem toNat_mailboxOffset (i : Initiator) {n : Nat} (h : n < 16) :
    (BitVec.ofNat 8 (64 + 16 * i.val + n)).toNat = 64 + 16 * i.val + n := by
  rw [BitVec.toNat_ofNat]
  omega

theorem readWindow_initiatorWord (s : State) (i : Initiator) {n : Nat} (h1 : 1 ≤ n) (h16 : n < 16) :
    s.readWindow (BitVec.ofNat 8 (64 + 16 * i.val + n)) = s.mailboxes[i].readWord n := by
  rw [State.readWindow, regionOf_mailbox h16 (toNat_mailboxOffset i h16)]
  obtain ⟨m, rfl⟩ := Nat.exists_eq_add_of_le' h1
  rfl

theorem readWindow_initiatorWord0 (s : State) (i : Initiator) :
    s.readWindow (BitVec.ofNat 8 (64 + 16 * i.val)) = s.initiatorWord0 i := by
  rw [State.readWindow, regionOf_mailbox (addr := BitVec.ofNat 8 (64 + 16 * i.val)) (i := i) (word := 0) (by decide)
    (toNat_mailboxOffset i (n := 0) (by decide))]
  rfl

theorem controlBits_onlyBits (mb : Mailbox) {mask : Word} (h : ∀ k, 1 ≤ k → k < 6 → mask.getLsbD k = true) :
    OnlyBits mb.controlBits mask :=
  onlyBits_or (onlyBits_or (onlyBits_or (onlyBits_or (onlyBits_placeBit _ (h 1 (by decide) (by decide)))
    (onlyBits_placeBit _ (h 2 (by decide) (by decide)))) (onlyBits_placeBit _ (h 3 (by decide) (by decide))))
    (onlyBits_placeBit _ (h 4 (by decide) (by decide)))) (onlyBits_placeBit _ (h 5 (by decide) (by decide)))

theorem controlBits_shown (mb : Mailbox) : ControlShown mb.controlBits mb := by
  constructor <;> simp [Mailbox.controlBits, placeBit_getElem_apart]

/-- Bits above the control bits do not hide them. -/
theorem ControlShown.or {w x : Word} {mb : Mailbox} (h : ControlShown w mb) (hx : OnlyBits x 0xFFFFFFC0) :
    ControlShown (w ||| x) mb := by
  have hlow : ∀ k, k < 6 → x.getLsbD k = false := by
    intro k hk
    refine Bool.eq_false_iff.mpr fun hbit => ?_
    have := onlyBits_iff.mp hx k (by omega) hbit
    interval_cases k <;> exact absurd this (by decide)
  obtain ⟨hstart, hphase, hdone, herror, hovr, hcmpe⟩ := h
  constructor <;> rw [BitVec.getLsbD_or, hlow _ (by decide), Bool.or_false]
  · exact hstart
  · exact hphase
  · exact hdone
  · exact herror
  · exact hovr
  · exact hcmpe

theorem controlBits_getElem_apart (mb : Mailbox) {k : Nat} (hk : k < 32) (h : 6 ≤ k) : mb.controlBits[k] = false := by
  simp only [Mailbox.controlBits, BitVec.getElem_or]
  rw [placeBit_getElem_apart _ hk (by omega), placeBit_getElem_apart _ hk (by omega),
    placeBit_getElem_apart _ hk (by omega), placeBit_getElem_apart _ hk (by omega),
    placeBit_getElem_apart _ hk (by omega)]
  rfl

theorem State.managementWord0_shown (s : State) : ControlShown s.managementWord0 s.mgmt
    ∧ s.managementWord0.getLsbD 14 = s.cape ∧ s.managementWord0.getLsbD 15 = s.qae
    ∧ OnlyBits s.managementWord0 0xC03F := by
  refine ⟨?_, ?_, ?_, ?_⟩
  · exact ((controlBits_shown s.mgmt).or (onlyBits_placeBit _ (by decide))).or (onlyBits_placeBit _ (by decide))
  · simp [State.managementWord0, controlBits_getElem_apart, placeBit_getElem_apart]
  · simp [State.managementWord0, controlBits_getElem_apart, placeBit_getElem_apart]
  · exact onlyBits_or (onlyBits_or (controlBits_onlyBits _ fun k h1 h6 => by interval_cases k <;> rfl)
      (onlyBits_placeBit _ (by decide))) (onlyBits_placeBit _ (by decide))

theorem controlBits_bitField_apart (mb : Mailbox) {lo width : Nat} (h : 6 ≤ lo) : bitField lo width mb.controlBits = 0 := by
  simp only [Mailbox.controlBits, bitField_or]
  rw [bitField_placeBit_apart _ (by omega), bitField_placeBit_apart _ (by omega), bitField_placeBit_apart _ (by omega),
    bitField_placeBit_apart _ (by omega), bitField_placeBit_apart _ (by omega)]
  rfl

theorem State.initiatorWord0_shown (s : State) (i : Initiator) : ControlShown (s.initiatorWord0 i) s.mailboxes[i]
    ∧ (s.initiatorWord0 i).getLsbD 6 = s.ntfe[i]
    ∧ (s.initiatorWord0 i).getLsbD 7 = decide (s.tables.inits[i].state = .lapsed)
    ∧ bitField 8 4 (s.initiatorWord0 i) = s.tables.inits[i].notices.length % 16
    ∧ bitField 12 2 (s.initiatorWord0 i) = s.tables.inits[i].state.code
    ∧ OnlyBits (s.initiatorWord0 i) 0x3FFF := by
  refine ⟨?_, ?_, ?_, ?_, ?_, ?_⟩
  · exact ((((controlBits_shown s.mailboxes[i]).or (onlyBits_placeBit _ (by decide))).or
      (onlyBits_placeBit _ (by decide))).or (onlyBits_place _ (by decide))).or (onlyBits_place _ (by decide))
  · simp [State.initiatorWord0, controlBits_getElem_apart, placeBit_getElem_apart, place_getElem_apart]
  · simp [State.initiatorWord0, controlBits_getElem_apart, placeBit_getElem_apart, place_getElem_apart]
  · simp [State.initiatorWord0, controlBits_bitField_apart, bitField_placeBit_apart, bitField_place_self,
      bitField_place_apart]
  · simp [State.initiatorWord0, controlBits_bitField_apart, bitField_placeBit_apart, bitField_place_self,
      bitField_place_apart]
    exact InitState.code_lt _
  · exact onlyBits_or (onlyBits_or (onlyBits_or (onlyBits_or
      (controlBits_onlyBits _ fun k h1 h6 => by interval_cases k <;> rfl) (onlyBits_placeBit _ (by decide)))
      (onlyBits_placeBit _ (by decide))) (onlyBits_place _ (by decide))) (onlyBits_place _ (by decide))

/-! ### The configuration and the status block (R173, R180) -/

theorem readWindow_config (s : State) (reg : ConfigReg) :
    s.readWindow (BitVec.ofNat 8 (16 + configWord reg)) = BitVec.ofNat 32 (s.config.value reg) := by
  cases reg <;> rfl

theorem readWindow_refusal (s : State) : s.readWindow 31 = placeBit 0 s.configRefused := rfl

theorem placeBit_zero_toNat (b : Bool) : (placeBit 0 b).toNat = b.toNat := by
  cases b <;> rfl

/-- The two switches and the manager set fit a word. -/
theorem toNat_ofNat_of_lt {v : Nat} (h : v < 4294967296) : (BitVec.ofNat 32 v).toNat = v := by
  rw [BitVec.toNat_ofNat]
  exact Nat.mod_eq_of_lt h

theorem State.readConfig_shown (s : State) :
    (s.readWindow 16).toNat = s.config.tickPeriod % 4294967296
      ∧ (s.readWindow 17).toNat = s.config.leaseLength % 4294967296
      ∧ (s.readWindow 18).toNat = s.config.fenceLimit % 4294967296
      ∧ (s.readWindow 19).toNat = s.config.claimLimit % 4294967296
      ∧ (s.readWindow 20).toNat = s.config.guardLimit % 4294967296
      ∧ (s.readWindow 21).toNat = s.config.unclaimedClosed.toNat
      ∧ (s.readWindow 22).toNat = s.config.readThrough.toNat
      ∧ (s.readWindow 23).toNat = s.config.managerSet.toNat
      ∧ (s.readWindow 31).toNat = s.configRefused.toNat := by
  refine ⟨BitVec.toNat_ofNat .., BitVec.toNat_ofNat .., BitVec.toNat_ofNat .., BitVec.toNat_ofNat ..,
    BitVec.toNat_ofNat .., toNat_ofNat_of_lt ?_, toNat_ofNat_of_lt ?_, toNat_ofNat_of_lt ?_,
    placeBit_zero_toNat s.configRefused⟩
  · exact (Bool.toNat_lt _).trans (by decide)
  · exact (Bool.toNat_lt _).trans (by decide)
  · exact s.config.managerSet.isLt.trans (by decide)

theorem DirState.code_lt (d : DirState) : d.code < 4 := by
  cases d <;> decide

theorem PresentCount.code_lt (p : PresentCount) : p.code < 4 := by
  cases p <;> decide

theorem readWindow_status0 (s : State) : s.readWindow 32 = place 0 2 s.dirState.code ||| placeBit 4 s.configRefused
    ||| placeBit 8 s.straps.autoon ||| placeBit 9 s.straps.mgrall ||| place 12 2 s.straps.present.code := rfl

theorem readWindow_status1 (s : State) : s.readWindow 33
    = place 0 9 s.tables.claims.inUse ||| place 16 9 s.tables.claims.quarantineCount := rfl

theorem readWindow_status2 (s : State) : s.readWindow 34 = s.statusWord088 := rfl

theorem readWindow_status3 (s : State) : s.readWindow 35 = captureWordA s.capture s.overflow := rfl

theorem readWindow_status4 (s : State) : s.readWindow 36 = captureWordB s.capture := rfl

theorem State.status0_shown (s : State) : bitField 0 2 (s.readWindow 32) = s.dirState.code
    ∧ (s.readWindow 32).getLsbD 4 = s.configRefused ∧ (s.readWindow 32).getLsbD 8 = s.straps.autoon
    ∧ (s.readWindow 32).getLsbD 9 = s.straps.mgrall ∧ bitField 12 2 (s.readWindow 32) = s.straps.present.code
    ∧ OnlyBits (s.readWindow 32) 0x3313 := by
  rw [readWindow_status0]
  refine ⟨?_, ?_, ?_, ?_, ?_, ?_⟩
  · simp [bitField_place_self, bitField_place_apart, bitField_placeBit_apart, DirState.code_lt]
  · simp [place_getElem_apart, placeBit_getElem_apart]
  · simp [place_getElem_apart, placeBit_getElem_apart]
  · simp [place_getElem_apart, placeBit_getElem_apart]
  · simp [bitField_place_self, bitField_place_apart, bitField_placeBit_apart, PresentCount.code_lt]
  · exact onlyBits_or (onlyBits_or (onlyBits_or (onlyBits_or (onlyBits_place _ (by decide))
      (onlyBits_placeBit _ (by decide))) (onlyBits_placeBit _ (by decide))) (onlyBits_placeBit _ (by decide)))
      (onlyBits_place _ (by decide))

theorem State.status1_shown (s : State) : bitField 0 9 (s.readWindow 33) = s.tables.claims.length % 512
    ∧ bitField 16 9 (s.readWindow 33)
      = (s.tables.claims.filter fun e => decide (e.2.phase = .quarantined)).length % 512
    ∧ OnlyBits (s.readWindow 33) 0x01FF01FF := by
  rw [readWindow_status1]
  refine ⟨?_, ?_, onlyBits_or (onlyBits_place _ (by decide)) (onlyBits_place _ (by decide))⟩
  · simp [bitField_place_self, bitField_place_apart, Claims.inUse]
  · simp [bitField_place_self, bitField_place_apart, Claims.quarantineCount, List.countP_eq_length_filter]

/-- The owner's place in status word 088h. -/
def ownerBits (o : Option Ownership) : Word :=
  match o with
  | some o => placeBit 24 true ||| place 28 3 o.manager.val
  | none => 0

theorem statusWord088_eq (s : State) : s.statusWord088 = place 0 7 s.tables.queue.length
    ||| place 8 4 s.tables.fenceQueue.length ||| placeBit 16 s.freq ||| place 20 3 s.finit.val
    ||| placeBit 23 s.flight.isDeferred ||| ownerBits s.ownership := rfl

theorem ownerBits_bitField_apart (o : Option Ownership) {lo width : Nat} (h : lo + width ≤ 24) :
    bitField lo width (ownerBits o) = 0 := by
  cases o with
  | none => exact bitField_zero _ _
  | some o =>
    rw [ownerBits, bitField_or, bitField_placeBit_apart _ (by omega), bitField_place_apart _ (by omega)]
    rfl

theorem ownerBits_getElem_apart (o : Option Ownership) {k : Nat} (hk : k < 32) (h : k < 24) :
    (ownerBits o)[k] = false := by
  cases o with
  | none => simp [ownerBits]
  | some o => simp [ownerBits, placeBit_getElem_apart _ hk (Or.inl h), place_getElem_apart hk (Or.inl (by omega : k < 28))]

theorem ownerBits_getElem (o : Option Ownership) : (ownerBits o)[24] = o.isSome := by
  cases o with
  | none => simp [ownerBits]
  | some o => simp [ownerBits, place_getElem_apart]

theorem ownerBits_manager (o : Option Ownership) :
    (∀ p, o = some p → bitField 28 3 (ownerBits o) = p.manager.val) ∧ (o = none → bitField 28 3 (ownerBits o) = 0) := by
  constructor
  · rintro p rfl
    simp [ownerBits, bitField_placeBit_apart, bitField_place_self]
  · rintro rfl
    exact bitField_zero _ _

theorem ownerBits_onlyBits (o : Option Ownership) : OnlyBits (ownerBits o) 0x71F10F7F := by
  cases o with
  | none => exact onlyBits_zero _
  | some o => exact onlyBits_or (onlyBits_placeBit _ (by decide)) (onlyBits_place _ (by decide))

theorem State.freq_iff {s : State} : s.freq = true ↔ s.flight ≠ .idle := by
  unfold State.freq
  cases s.flight <;> simp

theorem State.finit_of_idle {s : State} (h : s.flight = .idle) : s.finit = 0 := by
  rw [State.finit, h]

theorem State.finit_of_initiator {s : State} {i : Initiator} (h : s.flight.initiator = some i) : s.finit = i := by
  unfold State.finit
  cases hf : s.flight <;> rw [hf] at h <;> cases h <;> rfl

theorem FenceFlight.isDeferred_iff {f : FenceFlight} : f.isDeferred = true ↔ ∃ i, f = .deferred i := by
  cases f <;> simp [FenceFlight.isDeferred]

theorem State.status2_bits (s : State) : bitField 0 7 (s.readWindow 34) = s.tables.queue.length % 128
    ∧ bitField 8 4 (s.readWindow 34) = s.tables.fenceQueue.length % 16 ∧ (s.readWindow 34).getLsbD 16 = s.freq
    ∧ bitField 20 3 (s.readWindow 34) = s.finit.val ∧ (s.readWindow 34).getLsbD 23 = s.flight.isDeferred
    ∧ (s.readWindow 34).getLsbD 24 = s.ownership.isSome
    ∧ bitField 28 3 (s.readWindow 34) = bitField 28 3 (ownerBits s.ownership)
    ∧ OnlyBits (s.readWindow 34) 0x71F10F7F := by
  rw [readWindow_status2, statusWord088_eq]
  refine ⟨?_, ?_, ?_, ?_, ?_, ?_, ?_, ?_⟩
  · simp [bitField_place_self, bitField_place_apart, bitField_placeBit_apart, ownerBits_bitField_apart]
  · simp [bitField_place_self, bitField_place_apart, bitField_placeBit_apart, ownerBits_bitField_apart]
  · simp [place_getElem_apart, placeBit_getElem_apart, ownerBits_getElem_apart]
  · simp [bitField_place_self, bitField_place_apart, bitField_placeBit_apart, ownerBits_bitField_apart]
  · simp [place_getElem_apart, placeBit_getElem_apart, ownerBits_getElem_apart]
  · simp [place_getElem_apart, placeBit_getElem_apart, ownerBits_getElem]
  · simp [bitField_place_apart, bitField_placeBit_apart]
  · exact onlyBits_or (onlyBits_or (onlyBits_or (onlyBits_or (onlyBits_or (onlyBits_place _ (by decide))
      (onlyBits_place _ (by decide))) (onlyBits_placeBit _ (by decide))) (onlyBits_place _ (by decide)))
      (onlyBits_placeBit _ (by decide))) (ownerBits_onlyBits _)

theorem State.status2_shown (s : State) : bitField 0 7 (s.readWindow 34) = s.tables.queue.length % 128
    ∧ bitField 8 4 (s.readWindow 34) = s.tables.fenceQueue.length % 16
    ∧ ((s.readWindow 34).getLsbD 16 = true ↔ s.flight ≠ .idle)
    ∧ (∀ i, s.flight.initiator = some i → bitField 20 3 (s.readWindow 34) = i.val)
    ∧ (s.flight = .idle → bitField 20 3 (s.readWindow 34) = 0)
    ∧ ((s.readWindow 34).getLsbD 23 = true ↔ ∃ i, s.flight = .deferred i)
    ∧ (s.readWindow 34).getLsbD 24 = s.ownership.isSome
    ∧ (∀ o, s.ownership = some o → bitField 28 3 (s.readWindow 34) = o.manager.val)
    ∧ (s.ownership = none → bitField 28 3 (s.readWindow 34) = 0)
    ∧ OnlyBits (s.readWindow 34) 0x71F10F7F := by
  obtain ⟨hqueue, hfences, hfreq, hfinit, hdeferred, howned, howner, hbits⟩ := s.status2_bits
  rw [hfreq, hfinit, hdeferred, howner]
  exact ⟨hqueue, hfences, State.freq_iff, fun i hi => congrArg Fin.val (State.finit_of_initiator hi),
    fun hidle => congrArg Fin.val (State.finit_of_idle hidle), FenceFlight.isDeferred_iff, howned,
    (ownerBits_manager _).1, (ownerBits_manager _).2, hbits⟩

theorem State.status3_shown (s : State) : bitField 1 1 (s.readWindow 35) = s.overflow.toNat
    ∧ OnlyBits (s.readWindow 35) 0x00FF0F77
    ∧ (s.capture = none → OnlyBits (s.readWindow 35) 2 ∧ s.readWindow 36 = 0)
    ∧ ∀ c, s.capture = some c →
      bitField 0 1 (s.readWindow 35) = 1 ∧ bitField 2 1 (s.readWindow 35) = accessCode c.kind
      ∧ bitField 4 3 (s.readWindow 35) = c.initiator.val ∧ bitField 8 4 (s.readWindow 35) = c.reason.code
      ∧ bitField 16 8 (s.readWindow 35) = c.reason.claimNumber
      ∧ (s.readWindow 36).toNat = c.granule.toNat := by
  rw [readWindow_status3, readWindow_status4]
  refine ⟨captureWordA_overflow _ _, captureWordA_onlyBits _ _, fun hnone => ?_, fun c hc => ?_⟩
  · rw [hnone]
    exact ⟨onlyBits_placeBit _ (by decide), rfl⟩
  · rw [hc]
    obtain ⟨hpresent, hkind, hinit, hreason, hnumber⟩ := captureWordA_some c s.overflow
    exact ⟨hpresent, hkind, hinit, hreason, hnumber, captureWordB_some c⟩

/-- The offsets that hold nothing (R149, R173, R180). -/
theorem readWindow_nothing (s : State) {addr : BitVec 8}
    (h : (24 ≤ addr.toNat ∧ addr.toNat ≤ 30) ∨ (37 ≤ addr.toNat ∧ addr.toNat < 64) ∨ 192 ≤ addr.toNat) :
    s.readWindow addr = 0 := by
  have hunused : (48 ≤ addr.toNat ∧ addr.toNat < 64) ∨ 192 ≤ addr.toNat → s.readWindow addr = 0 := fun h => by
    rw [State.readWindow, regionOf_unused h]
  rcases h with ⟨hlo, hhi⟩ | ⟨hlo, hhi⟩ | h
  · rw [State.readWindow, regionOf_config (by omega) (by omega)]
    generalize addr.toNat = a at hlo hhi
    interval_cases a <;> rfl
  · by_cases h48 : addr.toNat < 48
    · rw [State.readWindow, regionOf_status (by omega) h48]
      generalize addr.toNat = a at hlo h48
      interval_cases a <;> rfl
    · exact hunused (.inl ⟨by omega, hhi⟩)
  · exact hunused (.inr h)

/-! ### The read that takes ownership (R161) -/

theorem readManagementWord0_ownership {s : State} {who : Initiator} (h : OwnAccess s who) :
    (s.config.managerSet.getLsbD who.val = true → s.mgmt.busy = false → s.ownership = none →
        (readManagementWord0 who s).ownership = some ⟨who, s.usCount + 2000, false⟩)
      ∧ ((s.config.managerSet.getLsbD who.val = false ∨ s.mgmt.busy = true ∨ s.ownership ≠ none) →
        (readManagementWord0 who s).ownership = s.ownership) := by
  refine ⟨fun hm hb ho => if_pos (takesOwnership_iff.mpr ⟨h, hm, hb, ho⟩), fun hnot => if_neg fun htakes => ?_⟩
  obtain ⟨-, hm, hb, ho⟩ := takesOwnership_iff.mp htakes
  rcases hnot with hnot | hnot | hnot
  · rw [hm] at hnot
    cases hnot
  · rw [hb] at hnot
    cases hnot
  · exact hnot ho

/-- Settles O39: the read's effect on the ownership, its answer, and the words of each region. -/
theorem readingWord0TakesOwnership : Obligations.ReadingWord0TakesOwnership := by
  unfold Obligations.ReadingWord0TakesOwnership
  refine ⟨fun s who h => ⟨_, exec_takeOwnership who s, ?_, readManagementWord0_ownership h⟩,
    fun s who addr hr => ⟨fun hp => busRead_of_present ⟨hr, hp⟩ addr, fun ha => busRead_of_absent hr ha addr⟩,
    fun s => ?_, fun s i w hw => ?_, fun s => ⟨s.readConfig_shown, ?_, s.status1_shown, s.status2_shown, s.status3_shown⟩,
    fun s addr h => readWindow_nothing s h⟩
  · rw [readManagementWord0, busRead_of_present h]
    rfl
  · obtain ⟨hcontrol, hcape, hqae, hbits⟩ := s.managementWord0_shown
    exact ⟨hcontrol, hcape, hqae, hbits,
      s.mgmt.readWord_shown.congr fun n h1 h16 => readWindow_managementWord s h1 h16⟩
  · rw [readWindow_initiatorWord0] at hw
    subst hw
    obtain ⟨hcontrol, hntfe, hlapsed, hnotices, hstate, hbits⟩ := s.initiatorWord0_shown i
    refine ⟨hcontrol, hntfe, by rw [hlapsed, decide_eq_true_eq], hnotices, hstate.trans ?_, hbits,
      s.mailboxes[i].readWord_shown.congr fun n h1 h16 => readWindow_initiatorWord s i h1 h16⟩
    cases s.tables.inits[i].state <;> rfl
  · obtain ⟨hdir, hrefused, hautoon, hmgrall, hpresent, hbits⟩ := s.status0_shown
    refine ⟨hdir.trans ?_, hrefused, hautoon, hmgrall, hpresent.trans ?_, hbits⟩
    · cases s.dirState <;> rfl
    · cases s.straps.present <;> rfl

end Sys2Proof.Machine

/-! PROOF. The grant pass: the walk over the waiters in the words of the manual (R50 to R52), and the waiters that it
leaves (R53), with no hypothesis on the form of the table. -/

namespace Sys2Proof.Machine

/-! ### The records after a grant, listed -/

/-- A put drops nothing from the list but the record that was read under its number. -/
theorem Claims.mem_put_of_mem {claims : Claims} {n : ClaimNo} {c : Claim} {e : ClaimNo × Claim} (he : e ∈ claims) :
    e ∈ claims.put n c ∨ (e.1 = n ∧ claims.get n = some e.2 ∧ (n, c) ∈ claims.put n c) := by
  induction claims with
  | nil => exact absurd he List.not_mem_nil
  | cons f rest ih =>
    obtain ⟨k, d⟩ := f
    simp only [Claims.put]
    split
    · exact Or.inl (List.mem_cons_of_mem _ he)
    · split
      · rename_i hk
        rcases List.mem_cons.mp he with rfl | hrest
        · exact Or.inr ⟨hk.symm, by rw [Claims.get_cons, if_pos hk], List.mem_cons_self⟩
        · exact Or.inl (List.mem_cons_of_mem _ hrest)
      · rename_i hk
        rcases List.mem_cons.mp he with rfl | hrest
        · exact Or.inl List.mem_cons_self
        · refine (ih hrest).imp (List.mem_cons_of_mem _) fun ⟨hn, hg, hmem⟩ => ?_
          exact ⟨hn, by rw [Claims.get_cons, if_neg hk, hg], List.mem_cons_of_mem _ hmem⟩

/-- Every record listed before is listed after, as it was or with more conflicts. -/
def Claims.ListedTighter (after before : Claims) : Prop :=
  ∀ e ∈ before, ∃ c', (e.1, c') ∈ after ∧ e.2.TightensTo c'

/-- A put that tightens the record read under its number tightens the list. -/
theorem Claims.listedTighter_put {claims : Claims} {n : ClaimNo} {c : Claim}
    (h : ∀ d, claims.get n = some d → d.TightensTo c) : (claims.put n c).ListedTighter claims := by
  intro e he
  rcases Claims.mem_put_of_mem (n := n) (c := c) he with hmem | ⟨rfl, hg, hmem⟩
  · exact ⟨e.2, hmem, .refl e.2⟩
  · exact ⟨c, hmem, h e.2 hg⟩

/-- The record that a grant writes tightens the one it replaces. -/
theorem tightensTo_of_grantedRecord {claims : Claims} {w : Waiter} {n : ClaimNo} {c d : Claim}
    (hg : grantedRecord claims w = some (n, c)) (hd : claims.get n = some d) : d.TightensTo c := by
  obtain ⟨c', hc', htight⟩ := Claims.tighter_granted hg n d hd
  rw [Claims.get_put_self] at hc'
  exact Option.some.inj hc' ▸ htight

/-- What contended keeps contending where the list tightens and more waiters stand ahead. -/
theorem Contends.listedTighter {claims claims' : Claims} (ht : claims'.ListedTighter claims)
    {earlier : List Waiter} {own : Option ClaimNo} {mode : Mode} {span : Span}
    (h : Contends claims earlier own mode span) : Contends claims' earlier own mode span := by
  refine h.imp_left fun ⟨e, he, hown, hconf⟩ => ?_
  obtain ⟨c', hmem, htight⟩ := ht e he
  exact ⟨(e.1, c'), hmem, hown, htight.conflicts hconf⟩

/-- A full table stays full where its records still stand. -/
theorem Claims.Full.tighter {claims claims' : Claims} (h : claims.Full) (ht : claims'.Tighter claims) :
    claims'.Full := by
  intro n hn
  obtain ⟨c, hc⟩ := Option.ne_none_iff_exists'.mp (h n)
  obtain ⟨c', hc', -⟩ := ht n c hc
  exact Option.some_ne_none c' (hc'.symm.trans hn)

/-- A grant leaves the waiters that stay blocked, in any table. -/
theorem AllBlocked.granted {claims : Claims} {w : Waiter} {n : ClaimNo} {c : Claim}
    (hg : grantedRecord claims w = some (n, c)) {earlier queue : List Waiter} (h : AllBlocked claims earlier queue) :
    AllBlocked (claims.put n c) earlier queue := by
  have hlisted := Claims.listedTighter_put fun d => tightensTo_of_grantedRecord hg (d := d)
  induction queue generalizing earlier with
  | nil => trivial
  | cons v rest ih =>
    refine ⟨blocked_iff.mpr ?_, ih h.2⟩
    exact (blocked_iff.mp h.1).imp (Contends.listedTighter hlisted)
      (And.imp_right fun hfull => Claims.Full.tighter hfull (Claims.tighter_granted hg))

/-- No waiter of the list names a FREE record. -/
def NamesStand (claims : Claims) (waiters : List Waiter) : Prop :=
  ∀ v ∈ waiters, ∀ n, v.ownRecord = some n → ¬claims.IsFree n

theorem NamesStand.tail {claims : Claims} {v : Waiter} {rest : List Waiter} (h : NamesStand claims (v :: rest)) :
    NamesStand claims rest :=
  fun w hw => h w (List.mem_cons_of_mem v hw)

/-- A put frees no record. -/
theorem NamesStand.put {claims : Claims} {waiters : List Waiter} (h : NamesStand claims waiters) (n : ClaimNo)
    (c : Claim) : NamesStand (claims.put n c) waiters := by
  intro v hv m hm hfree
  rw [Claims.IsFree, Claims.get_put] at hfree
  split at hfree
  · cases hfree
  · exact h v hv m hm hfree

/-! ### The waiters a pass leaves -/

/-- Settles O26: each waiter that stays was blocked when it was judged, and the grants after it only tighten the
table. -/
theorem grantPassLeavesOnlyBlockedWaiters : Obligations.GrantPassLeavesOnlyBlockedWaiters := by
  unfold Obligations.GrantPassLeavesOnlyBlockedWaiters
  intro tb hnames
  refine (grantPass_induction (P := fun tb' rest => AllBlocked tb'.claims [] tb'.queue
    ∧ NamesStand tb'.claims rest) ?_ ?_ tb ⟨trivial, hnames⟩).1
  · intro tb' w rest ⟨hall, hstand⟩ hj
    have hblocked := blocked_of_judgeWaiter_eq_none (hstand w List.mem_cons_self) hj
    exact ⟨allBlocked_append.mpr ⟨hall, hblocked, trivial⟩, hstand.tail⟩
  · intro tb' w rest n c ⟨hall, hstand⟩ hj
    have hg := (judgeWaiter_eq_some.mp hj).2
    exact ⟨hall.granted hg, hstand.tail.put n c⟩

/-! ### The walk of a pass -/

/-- A waiter that is granted is a step of the walk. -/
theorem PassWalk.granted {claims last : Claims} {inits lastInits : Vector InitRecord 8}
    {kept rest stayed : List Waiter} {v : Waiter} {n : ClaimNo} {c : Claim}
    (hj : judgeWaiter claims kept v = some (n, c))
    (hrest : PassWalk (claims.put n c) (appendNotice inits v.initiator ⟨v.ticket, .granted n, c.tag⟩) kept rest
      last lastInits stayed) : PassWalk claims inits kept (v :: rest) last lastInits stayed := by
  obtain ⟨hfree, hg⟩ := judgeWaiter_eq_some.mp hj
  have hclear := contended_eq_false_iff.mp hfree
  have hput := Claims.onlyChanged_put claims n c
  rcases grantedRecord_eq_some.mp hg with ⟨mode, hk, hl, rfl⟩ | ⟨hk, d, hd, rfl⟩
  · simp only [Waiter.ownRecord, Waiter.mode, hk] at hclear
    exact .grantedClaim _ _ _ _ _ _ _ _ _ mode n hk hclear (Claims.lowestFree_eq_some.mp hl) hput hrest
  · simp only [Waiter.ownRecord, Waiter.mode, hk] at hclear
    exact .grantedUpgrade _ _ _ _ _ _ _ _ _ n d hk hd hclear hput hrest

/-- The walk of the model is the walk of R51, from the waiters judged so far. -/
theorem passWalk_grantWalk (rest : List Waiter) (tb : Tables) (hnames : NamesStand tb.claims rest) :
    PassWalk tb.claims tb.inits tb.queue rest (grantWalk tb rest).claims (grantWalk tb rest).inits
      (grantWalk tb rest).queue := by
  induction rest generalizing tb with
  | nil => exact .finished _ _ _
  | cons v rest ih =>
    rw [grantWalk]
    split
    · rename_i hj
      have hb := blocked_iff.mp (blocked_of_judgeWaiter_eq_none (hnames v List.mem_cons_self) hj)
      exact .blocked _ _ _ _ _ _ _ v hb (ih { tb with queue := tb.queue ++ [v] } hnames.tail)
    · rename_i n c hj
      exact .granted hj (ih (grantWaiter tb v n c) (hnames.tail.put n c))

/-- A pass changes the records, the queue and the notice lists, and nothing else. -/
theorem grantPass_eq (tb : Tables) : grantPass tb = { tb with
    claims := (grantPass tb).claims, queue := (grantPass tb).queue, inits := (grantPass tb).inits } := by
  have hcounter := grantPass_ticketCounter tb
  have hfence := grantPass_fenceQueue tb
  revert hcounter hfence
  cases grantPass tb
  rintro rfl rfl
  rfl

/-- A sole waiter that is granted leaves the queue. -/
theorem grantPass_sole_granted {tb : Tables} {v : Waiter} {n : ClaimNo} {c : Claim} (hq : tb.queue = [v])
    (hj : judgeWaiter tb.claims [] v = some (n, c)) :
    grantPass tb = { tb with
      claims := tb.claims.put n c
      queue := []
      inits := appendNotice tb.inits v.initiator ⟨v.ticket, .granted n, c.tag⟩ } := by
  simp only [grantPass, hq, grantWalk, hj]
  rfl

/-- A sole waiter that is not granted stays. -/
theorem grantPass_sole_of_none {tb : Tables} {v : Waiter} (hq : tb.queue = [v])
    (hj : judgeWaiter tb.claims [] v = none) : grantPass tb = tb := by
  obtain ⟨claims, queue, counter, fence, inits⟩ := tb
  cases hq
  simp [grantPass, grantWalk, hj]

/-- A waiter that R50 blocks is not granted. -/
theorem judgeWaiter_eq_none_of_blocked {claims : Claims} {earlier : List Waiter} {v : Waiter}
    (h : Contends claims earlier v.ownRecord v.mode v.span ∨ (v.isClaim = true ∧ claims.Full)) :
    judgeWaiter claims earlier v = none := by
  refine judgeWaiter_eq_none.mpr (h.imp contended_iff.mpr fun ⟨hclaim, hfull⟩ => ?_)
  have hnone := Claims.lowestFree_eq_none.mpr hfull
  cases hk : v.kind with
  | claim mode => simp [grantedRecord, hk, hnone]
  | upgrade n => simp [Waiter.isClaim, hk] at hclaim

/-- Settles O25: the walk of the model is the walk of R51, and a sole waiter is judged against the table alone. -/
theorem grantPassJudgesWaitersInQueueOrder : Obligations.GrantPassJudgesWaitersInQueueOrder := by
  unfold Obligations.GrantPassJudgesWaitersInQueueOrder
  refine ⟨fun tb hnames => ⟨_, _, _, ?_, grantPass_eq tb⟩, fun tb v hq => ⟨?_, ?_, fun hb => ?_⟩⟩
  · exact passWalk_grantWalk tb.queue { tb with queue := [] } hnames
  · intro mode n hk hclear hn
    have hj : judgeWaiter tb.claims [] v = some (n, ⟨.held, v.initiator, mode, v.span, v.tag, none⟩) := by
      refine judgeWaiter_eq_some.mpr ⟨contended_eq_false_iff.mpr ?_, ?_⟩
      · simpa only [Waiter.ownRecord, Waiter.mode, hk] using hclear
      · exact grantedRecord_eq_some.mpr (Or.inl ⟨mode, hk, Claims.lowestFree_eq_some.mpr hn, rfl⟩)
    exact ⟨_, grantPass_sole_granted hq hj, Claims.onlyChanged_put _ _ _⟩
  · intro n c hk hg hclear
    have hj : judgeWaiter tb.claims [] v = some (n, { c with mode := .exclusive, upgradeTicket := none }) := by
      refine judgeWaiter_eq_some.mpr ⟨contended_eq_false_iff.mpr ?_, ?_⟩
      · simpa only [Waiter.ownRecord, Waiter.mode, hk] using hclear
      · exact grantedRecord_eq_some.mpr (Or.inr ⟨hk, c, hg, rfl⟩)
    have hgrant := grantPass_sole_granted hq hj
    exact ⟨_, hgrant, Claims.onlyChanged_put _ _ _⟩
  · exact grantPass_sole_of_none hq (judgeWaiter_eq_none_of_blocked hb)

end Sys2Proof.Machine

/-! PROOF. The check port's verdict and the fence unit: a fence is issued, answered, deferred, and failed by the tick
(R97 to R104, R111, R112, R120). -/

namespace Sys2Proof.Machine

/-! ### The first line that applies -/

section

variable {s : State} {who : Initiator} {granule : Granule} {kind : AccessKind}

/-- A judgement read from line `k` on is the answer of the first line from `k` on that applies. -/
theorem AnsweredFrom.exists_first {k : Nat} {j : Judgement} (h : AnsweredFrom s who granule kind k j) :
    ∃ line, k ≤ line ∧ LineApplies s who granule kind line
      ∧ (∀ m, k ≤ m → m < line → ¬LineApplies s who granule kind m) ∧ lineVerdict line = j.verdict := by
  induction h with
  | @here k j happlies hanswer =>
    exact ⟨k, le_rfl, happlies, fun m hm hlt => absurd hlt (Nat.not_lt.mpr hm), hanswer.1⟩
  | @next k j hnot _ ih =>
    obtain ⟨line, hle, happlies, hfirst, hverdict⟩ := ih
    refine ⟨line, Nat.le_of_succ_le hle, happlies, fun m hm hlt => ?_, hverdict⟩
    rcases hm.eq_or_lt with rfl | hkm
    · exact hnot
    · exact hfirst m hkm hlt

/-- The answer of a query shows in the verdict, the capture and the overflow flag alone. -/
theorem answerQuery_eq (j : Judgement) : answerQuery who granule kind j s = { s with
    verdictOut := some j.verdict
    capture := (answerQuery who granule kind j s).capture
    overflow := (answerQuery who granule kind j s).overflow } := by
  cases j with
  | pass => rfl
  | retry => rfl
  | fault reason =>
    by_cases hnone : s.capture = none
    · rw [answerQuery_fault_latches reason hnone]
      rfl
    · rw [answerQuery_fault_overflows reason hnone]
      rfl

end

/-- Settles O43: some line from the first on applies, and the answer of the first that does is the judgement. -/
theorem verdictIsTheFirstLineThatApplies : Obligations.VerdictIsTheFirstLineThatApplies := by
  unfold Obligations.VerdictIsTheFirstLineThatApplies
  intro s who granule kind hrun
  obtain ⟨line, -, happlies, hfirst, hverdict⟩ := (s.judgeQuery_answered who granule kind).exists_first
  refine ⟨_, line, exec_checkQuery hrun who granule kind, happlies, hfirst, ?_⟩
  rw [hverdict]
  exact answerQuery_eq _

/-! ### What an issue and an outcome make of one record (R13 to R15) -/

theorem issueDrain_eq (i : Initiator) (c : Claim) : issueDrain i c =
    if c.holder = i ∧ c.phase = .drainingDown .pending then { c with phase := .drainingDown .issued }
    else if c.holder = i ∧ c.phase = .drainingOut .pending then { c with phase := .drainingOut .issued }
    else c := by
  by_cases hi : c.holder = i
  · cases hp : c.phase with
    | held => simp [issueDrain, hp]
    | drainingDown stage => cases stage <;> simp [issueDrain, hi, hp]
    | drainingOut stage => cases stage <;> simp [issueDrain, hi, hp]
    | quarantined => simp [issueDrain, hp]
  · simp [issueDrain, hi]

theorem finishDrain_eq (i : Initiator) (c : Claim) : finishDrain i c =
    if c.holder = i ∧ c.phase = .drainingOut .issued then none
    else if c.holder = i ∧ c.phase = .drainingDown .issued then some { c with phase := .held, mode := .shared }
    else some c := by
  by_cases hi : c.holder = i
  · cases hp : c.phase with
    | held => simp [finishDrain, hp]
    | drainingDown stage => cases stage <;> simp [finishDrain, hi, hp]
    | drainingOut stage => cases stage <;> simp [finishDrain, hi, hp]
    | quarantined => simp [finishDrain, hp]
  · simp [finishDrain, hi]

theorem failDrain_eq (i : Initiator) (c : Claim) : failDrain i c =
    if c.holder = i ∧ (c.phase = .drainingOut .issued ∨ c.phase = .drainingDown .issued) then
      { c with phase := .quarantined }
    else c := by
  by_cases hi : c.holder = i
  · cases hp : c.phase with
    | held => simp [failDrain, hp]
    | drainingDown stage => cases stage <;> simp [failDrain, hi, hp]
    | drainingOut stage => cases stage <;> simp [failDrain, hi, hp]
    | quarantined => simp [failDrain, hp]
  · simp [failDrain, hi]

theorem failDrain_of_not_issuedDrain {i : Initiator} {c : Claim} (h : c.holder = i → c.issuedDrain = false) :
    failDrain i c = c := by
  rw [failDrain_eq, if_neg]
  rintro ⟨hi, hp | hp⟩ <;> simpa [Claim.issuedDrain, hp] using h hi

/-! ### What an issue and an outcome make of the tables -/

theorem Claims.alter_eq_self {claims : Claims} {f : ClaimNo → Claim → Option Claim}
    (h : ∀ e ∈ claims, f e.1 e.2 = some e.2) : claims.alter f = claims := by
  unfold Claims.alter
  induction claims with
  | nil => rfl
  | cons e rest ih =>
    obtain ⟨he, hrest⟩ := List.forall_mem_cons.mp h
    rw [List.filterMap_cons, he, Option.map_some, ih hrest]

/-- A change that frees no record, read at one record. -/
theorem Claims.get_alter_some {claims : Claims} (hs : claims.Sorted) (f : Claim → Claim) (n : ClaimNo) :
    (claims.alter fun _ c => some (f c)).get n = (claims.get n).map f := by
  rw [Claims.get_alter hs, Option.map_eq_bind]
  rfl

theorem hasIssuedDrain_iff {claims : Claims} {i : Initiator} :
    hasIssuedDrain claims i = true ↔ ∃ e ∈ claims, e.2.holder = i ∧ e.2.issuedDrain = true := by
  simp only [hasIssuedDrain, List.any_eq_true, Bool.and_eq_true, decide_eq_true_eq, and_comm]

theorem hasIssuedDrain_eq_false_iff {claims : Claims} {i : Initiator} :
    hasIssuedDrain claims i = false ↔ ∀ e ∈ claims, e.2.holder = i → e.2.issuedDrain = false := by
  rw [← Bool.not_eq_true, hasIssuedDrain_iff]
  simp only [not_exists, not_and, Bool.not_eq_true]

/-- The outcome of a fence for `i`: `after` are the records, and the tables are those of a grant pass over them when
one of the drains was ISSUED, and unchanged otherwise (R111, R112). -/
structure FenceOutcome (tb : Tables) (i : Initiator) (after : Claims) (out : Tables) : Prop where
  passed : (∃ e ∈ tb.claims, e.2.holder = i ∧ e.2.issuedDrain = true) →
    out = grantPass { tb with claims := after }
  kept : (∀ e ∈ tb.claims, e.2.holder = i → e.2.issuedDrain = false) → out = tb

/-- An outcome changes no record without an ISSUED drain, so it is a pass over changed records or nothing. -/
theorem fenceOutcome_grantPassIf {tb : Tables} {i : Initiator} {f : Claim → Option Claim}
    (hf : ∀ c : Claim, (c.holder = i → c.issuedDrain = false) → f c = some c) :
    FenceOutcome tb i (tb.claims.alter fun _ c => f c)
      (grantPassIf (hasIssuedDrain tb.claims i) { tb with claims := tb.claims.alter fun _ c => f c }) where
  passed h := by
    rw [hasIssuedDrain_iff.mpr h]
    rfl
  kept h := by
    rw [hasIssuedDrain_eq_false_iff.mpr h, Claims.alter_eq_self fun e he => hf e.2 (h e he)]
    rfl

theorem doneOutcome_fenceOutcome (tb : Tables) (i : Initiator) :
    FenceOutcome tb i (tb.claims.alter fun _ c => finishDrain i c) (doneOutcome tb i) :=
  fenceOutcome_grantPassIf fun _ => finishDrain_of_not_issuedDrain

theorem failedOutcome_fenceOutcome (tb : Tables) (i : Initiator) :
    FenceOutcome tb i (tb.claims.alter fun _ c => some (failDrain i c)) (failedOutcome tb i) :=
  fenceOutcome_grantPassIf (f := fun c => some (failDrain i c))
    fun _ h => congrArg some (failDrain_of_not_issuedDrain h)

/-! ### The issue (R97) -/

theorem exec_fenceIssue (s : State) : exec .fenceIssue s = .next (issueFence s) := rfl

theorem issueFence_of_idle {s : State} (hr : s.inReset = false) (hf : s.flight = .idle) {i : Initiator}
    {rest : List Initiator} (hq : s.tables.fenceQueue = i :: rest) :
    issueFence s = { s with
      tables := issueTables s.tables i rest
      flight := .timed i s.config.fenceLimit
      fenceTickHeld := false } := by
  simp only [issueFence, hr, hf, hq, Bool.false_eq_true, if_false]

theorem issueFence_of_not_due {s : State} (h : s.inReset = true ∨ s.flight ≠ .idle ∨ s.tables.fenceQueue = []) :
    issueFence s = s := by
  rcases issueFence_cases s with hsame | ⟨hr, i, rest, hf, hq, -⟩
  · exact hsame
  · rcases h with h | h | h
    · exact absurd (hr.symm.trans h) Bool.false_ne_true
    · exact absurd hf h
    · exact absurd (hq.symm.trans h) (List.cons_ne_nil i rest)

/-- Settles O45: the head of the queue is issued, with the record changes of R13. -/
theorem fenceIssueTakesTheHead : Obligations.FenceIssueTakesTheHead := by
  unfold Obligations.FenceIssueTakesTheHead
  refine ⟨fun s i rest hr hs hf hq => ?_, fun s h => congrArg Host.Outcome.next (issueFence_of_not_due h)⟩
  refine ⟨_, s.tables.claims.alter fun _ c => some (issueDrain i c),
    congrArg Host.Outcome.next (issueFence_of_idle hr hf hq), rfl, rfl, rfl, fun n => ?_⟩
  rw [Claims.get_alter_some hs, funext (issueDrain_eq i)]

/-! ### The answers (R101, R102) -/

theorem exec_fenceDone (s : State) : exec .fenceDone s = .next (fenceAnswer 0 s) := rfl
theorem exec_fenceDefer (s : State) : exec .fenceDefer s = .next (fenceAnswer 1 s) := rfl
theorem exec_fenceAnswerOtherKind (code : BitVec 2) (s : State) :
    exec (.fenceAnswerOtherKind code) s = .next (fenceAnswer code s) := rfl

theorem fenceAnswer_done {s : State} (hr : s.inReset = false) {i : Initiator} (hf : s.flight.initiator = some i) :
    fenceAnswer 0 s = { s with flight := .idle, tables := doneOutcome s.tables i } := by
  cases hflight : s.flight <;> rw [hflight] at hf <;> cases hf <;> simp [fenceAnswer, hr, takeDone, hflight]

theorem fenceAnswer_defer {s : State} (hr : s.inReset = false) {i : Initiator} {timer : Nat}
    (hf : s.flight = .timed i timer) : fenceAnswer 1 s = { s with flight := .deferred i } := by
  simp [fenceAnswer, hr, takeDefer, hf]

/-- In IDLE every answer is ignored. -/
theorem fenceAnswer_of_idle {s : State} (hf : s.flight = .idle) (code : BitVec 2) : fenceAnswer code s = s := by
  simp [fenceAnswer, takeDone, takeDefer, hf]

theorem fenceAnswer_defer_of_deferred {s : State} {i : Initiator} (hf : s.flight = .deferred i) :
    fenceAnswer 1 s = s := by
  simp [fenceAnswer, takeDefer, hf]

theorem fenceAnswer_other {code : BitVec 2} (h : 2 ≤ code.toNat) (s : State) : fenceAnswer code s = s := by
  have h0 : code ≠ 0 := by bv_omega
  have h1 : code ≠ 1 := by bv_omega
  unfold fenceAnswer
  rw [if_neg h0, if_neg h1, ite_self]

/-- Settles O46: the DONE answer ends the fence with the record changes of R14. -/
theorem fenceDoneFinishesTheIssuedDrains : Obligations.FenceDoneFinishesTheIssuedDrains := by
  unfold Obligations.FenceDoneFinishesTheIssuedDrains
  intro s i hr hs hf
  obtain ⟨hpassed, hkept⟩ := doneOutcome_fenceOutcome s.tables i
  refine ⟨_, _, congrArg Host.Outcome.next (fenceAnswer_done hr hf), rfl, rfl, rfl, fun n => ?_, hpassed, hkept⟩
  rw [Claims.get_alter hs]
  simp only [finishDrain_eq]

/-- Settles O47: each answer by the state of the fence unit. -/
theorem deferStopsTheTimerAndStrayAnswersAreIgnored : Obligations.DeferStopsTheTimerAndStrayAnswersAreIgnored := by
  unfold Obligations.DeferStopsTheTimerAndStrayAnswersAreIgnored
  refine ⟨fun s i timer hr hf => ?_, fun s hf => ⟨?_, ?_⟩, fun s i hf => ?_, fun s code h => ?_⟩
  · exact ⟨_, congrArg Host.Outcome.next (fenceAnswer_defer hr hf), rfl, rfl, rfl⟩
  · rw [exec_fenceDone, fenceAnswer_of_idle hf]
  · rw [exec_fenceDefer, fenceAnswer_of_idle hf]
  · rw [exec_fenceDefer, fenceAnswer_defer_of_deferred hf]
  · rw [exec_fenceAnswerOtherKind, fenceAnswer_other h]

/-! ### The ticks (R103, R104) -/

theorem exec_fenceUnitTick (s : State) : exec .fenceUnitTick s = .next (takeFenceTick s) := rfl

theorem State.issueDue_iff {s : State} : s.issueDue = true ↔ s.flight = .idle ∧ s.tables.fenceQueue ≠ [] := by
  simp [State.issueDue]

/-- A fence in flight leaves no issue due, so a delivered tick is taken. -/
theorem fenceTickReady_of_not_idle {s : State} (hr : s.inReset = false) (hd : s.dirState ≠ .dormant)
    (ht : s.fenceTick = true) (hf : s.flight ≠ .idle) : s.fenceTickReady = true :=
  fenceTickReady_iff.mpr ⟨hr, hd, ht, Or.inl (Bool.eq_false_iff.mpr fun hdue => hf (State.issueDue_iff.mp hdue).1)⟩

theorem takeFenceTick_of_not_ready {s : State} (h : s.fenceTickReady = false) : takeFenceTick s = s := by
  simp [takeFenceTick, h]

theorem takeFenceTick_of_ready {s : State} (h : s.fenceTickReady = true) :
    takeFenceTick s = tickFlight s.fenceTickTaken := by
  simp [takeFenceTick, h]

theorem tickFlight_of_not_timed {s : State} (h : s.flight = .idle ∨ ∃ i, s.flight = .deferred i) :
    tickFlight s = s := by
  rcases h with hf | ⟨i, hf⟩ <;> simp only [tickFlight, hf]

theorem tickFlight_lowers {s : State} {i : Initiator} {timer : Nat} (hf : s.flight = .timed i timer)
    (ht : 1 < timer) : tickFlight s = { s with flight := .timed i (timer - 1) } := by
  simp only [tickFlight, hf, Nat.not_le.mpr ht, if_false]

theorem tickFlight_fails {s : State} {i : Initiator} (hf : s.flight = .timed i 1) :
    tickFlight s = failFence i s := by
  simp only [tickFlight, hf, le_refl, if_true]

theorem expireFenceTimer_fails {s : State} {i : Initiator} (hf : s.flight = .timed i 1)
    (hready : s.fenceTickReady = true) : expireFenceTimer s = failFence i s.fenceTickTaken := by
  simp [expireFenceTimer, FenceFlight.expiring, hf, hready]

/-- In DORMANT the timer does not run out either. -/
theorem expireFenceTimer_of_not_ready {s : State} (h : s.fenceTickReady = false) : expireFenceTimer s = s := by
  rcases expireFenceTimer_cases s with hsame | ⟨hready, -⟩
  · exact hsame
  · exact absurd (h.symm.trans hready) Bool.false_ne_true

/-- The last tick of a fence by either of its commands: the fence fails. -/
theorem exec_lastFenceTick {s : State} {i : Initiator} {c : Instr} (hr : s.inReset = false)
    (hd : s.dirState ≠ .dormant) (ht : s.fenceTick = true) (hf : s.flight = .timed i 1)
    (hc : c ∈ [Instr.fenceTimerExpiry, .fenceUnitTick]) : exec c s = .next (failFence i s.fenceTickTaken) := by
  have hready := fenceTickReady_of_not_idle hr hd ht (by rw [hf]; exact nofun)
  rcases List.mem_pair.mp hc with rfl | rfl
  · rw [exec_fenceTimerExpiry, expireFenceTimer_fails hf hready]
  · rw [exec_fenceUnitTick, takeFenceTick_of_ready hready, tickFlight_fails (s := s.fenceTickTaken) hf]

/-- Settles O48: each tick by the state of the fence unit. -/
theorem fenceTicksLowerTheTimerUntilItFails : Obligations.FenceTicksLowerTheTimerUntilItFails := by
  unfold Obligations.FenceTicksLowerTheTimerUntilItFails
  refine ⟨⟨fun s i timer hr hd ht hf htimer => ?_, fun s hr hd ht hf => ?_, fun s h => ?_, fun s c hd hc => ?_⟩,
    fun s i c hr hd hs ht hf hc => ?_⟩
  · have hready := fenceTickReady_of_not_idle hr hd ht (by rw [hf]; exact nofun)
    rw [exec_fenceUnitTick, takeFenceTick_of_ready hready, tickFlight_lowers (s := s.fenceTickTaken) hf htimer]
    rfl
  · have hready : s.fenceTickReady = true := by
      refine fenceTickReady_iff.mpr ⟨hr, hd, ht, ?_⟩
      rcases hf with ⟨-, hheld | hempty⟩ | ⟨i, hf⟩
      · exact Or.inr hheld
      · exact Or.inl (by simp [State.issueDue, hempty])
      · exact Or.inl (by simp [State.issueDue, hf])
    rw [exec_fenceUnitTick, takeFenceTick_of_ready hready,
      tickFlight_of_not_timed (s := s.fenceTickTaken) (hf.imp_left And.left)]
    rfl
  · have hnot : s.fenceTickReady = false := by
      rw [Bool.eq_false_iff, ne_eq, fenceTickReady_iff]
      rintro ⟨hr, -, ht, hissue⟩
      rcases h with h | h | ⟨hf, hq, hheld⟩
      · exact absurd (hr.symm.trans h) Bool.false_ne_true
      · exact absurd (h.symm.trans ht) Bool.false_ne_true
      · rw [State.issueDue_iff.mpr ⟨hf, hq⟩, hheld] at hissue
        simp at hissue
    rw [exec_fenceUnitTick, takeFenceTick_of_not_ready hnot]
  · have hnot : s.fenceTickReady = false :=
      Bool.eq_false_iff.mpr fun hready => (fenceTickReady_iff.mp hready).2.1 hd
    rcases List.mem_pair.mp hc with rfl | rfl
    · rw [exec_fenceTimerExpiry, expireFenceTimer_of_not_ready hnot]
    · rw [exec_fenceUnitTick, takeFenceTick_of_not_ready hnot]
  · obtain ⟨hpassed, hkept⟩ := failedOutcome_fenceOutcome s.tables i
    refine ⟨_, _, exec_lastFenceTick hr hd ht hf hc, rfl, rfl, rfl, fun n => ?_, hpassed, hkept⟩
    rw [Claims.get_alter_some hs, funext (failDrain_eq i)]

end Sys2Proof.Machine

/-! PROOF. Time: a tick, a period of REFCLK and the end of an ownership window, and the ticks that wait, which are taken
first (R162, R171, R175 to R177). -/

namespace Sys2Proof.Machine

/-! ### What the events of time leave alone -/

/-- `t` is `s` but for the counts, the ticks, the ownership, the fence in flight and the tables. -/
def TimeFrame (s t : State) : Prop :=
  t = { s with
    usCount := t.usCount
    countdown := t.countdown
    ownership := t.ownership
    tables := t.tables
    flight := t.flight
    engineTick := t.engineTick
    fenceTick := t.fenceTick
    fenceTickHeld := t.fenceTickHeld }

theorem TimeFrame.trans {s t u : State} (h : TimeFrame s t) (h' : TimeFrame t u) : TimeFrame s u := by
  unfold TimeFrame at h h' ⊢
  rw [h', h]

theorem TimeEvent.frame {s t : State} (h : TimeEvent s t) : TimeFrame s t := by
  cases h with
  | engineTick =>
    rcases takeEngineTick_cases s with h | ⟨-, -, -, h⟩ <;> rw [h] <;> rfl
  | issue =>
    rcases issueFence_cases s with h | ⟨-, i, rest, -, -, h⟩ <;> rw [h] <;> rfl
  | fenceTick =>
    rcases takeFenceTick_cases s with h | ⟨-, h | ⟨i, timer, -, -, h⟩ | ⟨i, timer, -, -, h⟩⟩ <;> rw [h] <;> rfl
  | periods n hr => rfl

theorem TimeEvents.frame {s t : State} (h : TimeEvents s t) : TimeFrame s t := by
  induction h with
  | refl => rfl
  | tail _ he ih => exact ih.trans he.frame

/-! ### The commands of time -/

theorem exec_tick (s : State) : exec .tick s = .next (runToTick s) := rfl
theorem exec_ownershipWindowEnd (s : State) : exec .ownershipWindowEnd s = .next (runToWindowEnd s) := rfl

theorem step_of_pending_nil {s : State} (h : s.pending = []) : step s = .next (elapse 1 s) := by
  rw [step, h]
  rfl

/-- Periods up to the next tick, with no tick waiting. -/
theorem elapsed_elapse {s : State} (hr : s.inReset = false) (hw : ¬s.TickWaits) (n : Nat) :
    Elapsed s (elapse n s) n := by
  rw [elapse_eq_advance hr hw]
  exact elapsed_advance s n

/-! ### The end of the ownership window -/

/-- The window that a run has to end: it stands, its owner has not submitted, and ticks go on falling. -/
structure State.WindowRuns (s : State) (o : Ownership) : Prop where
  running : s.inReset = false
  owned : s.ownership = some o
  waits : o.submitted = false
  countdown : 0 < s.countdown
  period : 0 < s.config.tickPeriod

/-- A tick before the end of a window leaves the window running. -/
theorem State.WindowRuns.runToTick {s : State} {o : Ownership} (h : s.WindowRuns o)
    (hn : s.countdown < (o.windowEnd - s.usCount).toNat) :
    (runToTick s).WindowRuns o ∧ (runToTick s).countdown = s.config.tickPeriod
      ∧ (o.windowEnd - (runToTick s).usCount).toNat = (o.windowEnd - s.usCount).toNat - s.countdown := by
  obtain ⟨howned, hleft⟩ := elapse_before_end h.running h.owned h.waits hn
  have hcount : (elapse s.countdown s).countdown = s.config.tickPeriod := by
    rw [elapse_countdown h.running, if_neg (Nat.lt_irrefl _)]
  refine ⟨⟨?_, howned, h.waits, ?_, ?_⟩, hcount, hleft⟩
  · simpa [Machine.runToTick] using h.running
  · rw [Machine.runToTick, hcount]
    exact h.period
  · simpa [Machine.runToTick] using h.period

/-- A run to the end of a window ends the ownership there, with the countdown in its range. -/
theorem State.WindowRuns.runToWindowEnd {o : Ownership} (left : Nat) (s : State) (h : s.WindowRuns o)
    (hleft : (o.windowEnd - s.usCount).toNat = left) :
    (runToWindowEnd s).ownership = none ∧ (runToWindowEnd s).usCount = o.windowEnd
      ∧ 0 < (runToWindowEnd s).countdown
      ∧ ((runToWindowEnd s).countdown ≤ s.countdown ∨ (runToWindowEnd s).countdown ≤ s.config.tickPeriod) := by
  induction left using Nat.strong_induction_on generalizing s with
  | _ left ih =>
    by_cases hnear : left ≤ s.countdown
    · rw [runToWindowEnd_near h.owned h.waits (hleft ▸ hnear), hleft]
      obtain ⟨hended, hcount⟩ := elapse_at_end h.running h.owned h.waits hleft
      refine ⟨hended, hcount, ?_⟩
      rw [elapse_countdown h.running]
      have hperiod := h.period
      split <;> omega
    · have hfar : s.countdown < (o.windowEnd - s.usCount).toNat := by omega
      rw [runToWindowEnd_tick h.running h.owned h.waits h.period hfar]
      obtain ⟨hruns, hcountdown, hless⟩ := h.runToTick hfar
      have hstart := h.countdown
      obtain ⟨hended, hcount, hpos, hle⟩ := ih _ (by omega) (Machine.runToTick s) hruns rfl
      have hperiod : (Machine.runToTick s).config.tickPeriod = s.config.tickPeriod := by
        simp [Machine.runToTick]
      exact ⟨hended, hcount, hpos, Or.inr (by omega)⟩

theorem runToWindowEnd_of_no_window {s : State} (h : ∀ o, s.ownership = some o → o.submitted = true) :
    runToWindowEnd s = s := by
  have hnone : s.windowLeft = none := by
    unfold State.windowLeft
    cases ho : s.ownership with
    | none => rfl
    | some o => exact if_pos (h o ho)
  rw [runToWindowEnd, hnone]

/-- Settles O40: the near end, the far end by one tick, the whole run, and no running window. -/
theorem ownershipEndsWithItsWindow : Obligations.OwnershipEndsWithItsWindow := by
  unfold Obligations.OwnershipEndsWithItsWindow
  refine ⟨fun s o left hr ho hs hw hleft hnear => ?_, fun s o hr ho hs hc hp hfar => ?_,
    fun s o hr ho hs hc hp => ?_, fun s h => ?_⟩
  · subst hleft
    obtain ⟨hended, hcount⟩ := elapse_at_end hr ho hs rfl
    refine ⟨elapse (o.windowEnd - s.usCount).toNat s, ?_, elapsed_elapse hr hw _, hended, hcount⟩
    rw [exec_ownershipWindowEnd, runToWindowEnd_near ho hs hnear]
  · refine ⟨_, exec_tick s, ?_⟩
    rw [exec_ownershipWindowEnd, exec_ownershipWindowEnd, runToWindowEnd_tick hr ho hs hp hfar]
  · have hruns : s.WindowRuns o := ⟨hr, ho, hs, hc, hp⟩
    obtain ⟨hended, hcount, hpos, hle⟩ := hruns.runToWindowEnd _ s rfl
    have hframe := (runToWindowEnd_events s).frame
    unfold TimeFrame at hframe
    rw [hended] at hframe
    exact ⟨_, exec_ownershipWindowEnd s, hended, hcount, hpos, hle, hframe⟩
  · rw [exec_ownershipWindowEnd, runToWindowEnd_of_no_window h]

/-! ### The ticks that wait are taken first -/

section

variable {s : State}

theorem runToTick_settle (hr : s.inReset = false) (hd : s.dirState ≠ .dormant) :
    runToTick (settle s) = runToTick s := by
  rw [runToTick, runToTick, State.settle_countdown, elapse_settle hr hd]

theorem State.windowLeft_settle : (settle s).windowLeft = s.windowLeft := by
  simp [State.windowLeft]

/-- A run to the end of a window takes the ticks that wait first. -/
theorem runToWindowEnd_settle (hr : s.inReset = false) (hd : s.dirState ≠ .dormant) :
    runToWindowEnd (settle s) = if s.windowLeft.isSome then runToWindowEnd s else settle s := by
  have hbefore : ∀ left, (settle s).ticksBefore left = s.ticksBefore left := by
    simp [State.ticksBefore]
  cases hleft : s.windowLeft with
  | none =>
    rw [runToWindowEnd, State.windowLeft_settle, hleft]
    rfl
  | some left =>
    rw [runToWindowEnd, runToWindowEnd, State.windowLeft_settle, hleft]
    simp only [hbefore, Option.isSome_some, if_true]
    cases s.ticksBefore left with
    | zero => simp only [runTicks, endWindow, State.windowLeft_settle, hleft, elapse_settle hr hd]
    | succ k => simp only [runTicks, runToTick_settle hr hd]

end

/-- A request whose ticks were taken before it is the request in the state after them. -/
theorem exec_readied {k : RequestKind} {c : Instr} (hc : (k, c) ∈ requestCommands) (s : State)
    (h : (s.readied k).readied k = s.readied k) : exec c s = exec c (s.readied k) := by
  rcases requestCommand_cases hc with ⟨judge, harm⟩ | ⟨rfl, rfl⟩ | ⟨judge, harm⟩
  · rw [exec_of_initiatorArm harm, exec_of_initiatorArm harm, takeInitiator, takeInitiator, h]
  · rw [exec_undefinedRequestKind, exec_undefinedRequestKind, takeUndefined, takeUndefined, h]
  · rw [exec_of_managementArm harm, exec_of_managementArm harm, takeManagement, takeManagement, h]

/-- Settles O49: TICK, a period of REFCLK, the ticks that wait before time goes on, and those before an entry into
DORMANT. -/
theorem tickIsDeliveredUnlessDormant : Obligations.TickIsDeliveredUnlessDormant := by
  unfold Obligations.TickIsDeliveredUnlessDormant
  refine ⟨fun s hr hw => ?_, fun s hp hr hw hc => ?_, fun s hr hd hw => ?_, fun s m w k c hc ho he hw => ?_⟩
  · exact ⟨_, exec_tick s, elapsed_elapse hr hw _⟩
  · exact ⟨_, step_of_pending_nil hp, elapsed_elapse hr hw 1⟩
  · refine ⟨settle s, settled_settle s, settle_not_waiting hr hd, ?_, ?_, ?_⟩
    · rw [exec_tick, exec_tick, runToTick_settle hr hd]
    · rintro ⟨o, ho, hs⟩
      rw [exec_ownershipWindowEnd, exec_ownershipWindowEnd, runToWindowEnd_settle hr hd, State.windowLeft_eq ho hs]
      rfl
    · intro hp
      rw [step_of_pending_nil hp, step_of_pending_nil (by simpa using hp), elapse_settle hr hd]
  · have hready : s.readied k = settle s := by
      simp only [State.readied, ho.offered, State.entersDormancy_iff.mpr he, if_true]
    have hoffers : (s.readied k).Offers m k w := by
      rw [hready]
      exact State.offered_eq_some_iff.mp ((settle_offered s k).trans ho.offered)
    have htakes := State.readied_takes hoffers
    refine ⟨s.readied k, hready ▸ settled_settle s, htakes, exec_readied hc s htakes.readied⟩

end Sys2Proof.Machine

/-! PROOF. The tick at the directory engine: its two stages said once, over the initiators in ascending order, and the
commands WAIT_EXPIRY and LAPSE, which are that tick (R57, R80 to R82, R86, R87). -/

namespace Sys2Proof.Machine

/-! ### What runs out on the next tick -/

theorem leaseEnds_eq_runsOut (tb : Tables) (i : Initiator) : leaseEnds tb i = tb.inits[i].state.runsOut := by
  unfold leaseEnds InitState.runsOut
  cases tb.inits[i].state <;> rfl

theorem Waiter.expires_eq_runsOut (v : Waiter) : v.expires = v.runsOut := by
  unfold Waiter.expires Waiter.runsOut
  cases v.remaining <;> rfl

theorem tickPasses_iff {tb : Tables} :
    (tb.queue.any Waiter.expires || (List.finRange 8).any (leaseEnds tb)) = true ↔ TickPasses tb := by
  simp only [Bool.or_eq_true, List.any_eq_true, Waiter.expires_eq_runsOut, leaseEnds_eq_runsOut, List.mem_finRange,
    true_and]

/-- A tick on which something expires or lapses runs a grant pass. -/
theorem tickTables_of_passes {tb : Tables} (h : TickPasses tb) :
    tickTables tb = grantPass (tickLeases (tickExpiry tb)) := by
  rw [tickTables, tickPasses_iff.mpr h, grantPassIf_true]

theorem tickTables_of_not_passes {tb : Tables} (h : ¬TickPasses tb) : tickTables tb = tickLeases (tickExpiry tb) := by
  rw [tickTables, Bool.eq_false_iff.mpr (mt tickPasses_iff.mp h), grantPassIf_false]

/-! ### The departure of an initiator, at one record and at its PENDING drains -/

theorem afterDeparture_of_holder_ne {i : Initiator} {c : Claim} (h : c.holder ≠ i) : afterDeparture i c = some c :=
  if_pos h

theorem afterDeparture_holder {i : Initiator} {c d : Claim} (h : afterDeparture i c = some d) :
    d.holder = c.holder := by
  rw [← disposeRecord_eq] at h
  exact (disposeRecord_loosens i c d h).holder

/-- Some record of the initiator is a PENDING drain. -/
def Claims.hasPendingDrain (claims : Claims) (i : Initiator) : Bool :=
  claims.any fun e => decide (e.2.holder = i) && e.2.pendingDrain

theorem Claims.hasPendingDrain_iff_mem {claims : Claims} {i : Initiator} :
    claims.hasPendingDrain i = true ↔ ∃ e ∈ claims, e.2.holder = i ∧ e.2.pendingDrain = true := by
  simp only [Claims.hasPendingDrain, List.any_eq_true, Bool.and_eq_true, decide_eq_true_eq]

theorem Claims.hasPendingDrain_iff {claims : Claims} (hs : claims.Sorted) {i : Initiator} :
    claims.hasPendingDrain i = true ↔ ∃ n c, claims.get n = some c ∧ c.holder = i ∧ c.pendingDrain = true := by
  simp only [Claims.hasPendingDrain_iff_mem, Claims.get_eq_some_iff hs, Prod.exists]

/-- The departure of `i` leaves the records of the others. -/
theorem Departed.get_eq_some_iff {tb left : Tables} {i : Initiator} {st : InitState} (h : Departed tb left i st)
    {n : ClaimNo} {c : Claim} (hc : c.holder ≠ i) : left.claims.get n = some c ↔ tb.claims.get n = some c := by
  rw [h.records, Option.bind_eq_some_iff]
  constructor
  · rintro ⟨d, hd, hdc⟩
    rw [afterDeparture_of_holder_ne (afterDeparture_holder hdc ▸ hc)] at hdc
    exact hd.trans hdc
  · intro hget
    exact ⟨c, hget, afterDeparture_of_holder_ne hc⟩

theorem Departed.hasPendingDrain {tb left : Tables} {i j : Initiator} {st : InitState} (h : Departed tb left i st)
    (hs : tb.claims.Sorted) (hj : j ≠ i) : left.claims.hasPendingDrain j = tb.claims.hasPendingDrain j := by
  rw [Bool.eq_iff_iff, Claims.hasPendingDrain_iff h.sorted, Claims.hasPendingDrain_iff hs]
  refine exists_congr fun n => exists_congr fun c => ?_
  constructor
  · rintro ⟨hget, rfl, hp⟩
    exact ⟨(h.get_eq_some_iff hj).mp hget, rfl, hp⟩
  · rintro ⟨hget, rfl, hp⟩
    exact ⟨(h.get_eq_some_iff hj).mpr hget, rfl, hp⟩

/-- The departure of `i` appends it to the fence queue when it has a PENDING drain and does not stand there. -/
theorem Departed.fenceQueue {tb left : Tables} {i : Initiator} {st : InitState} (h : Departed tb left i st) :
    left.fenceQueue = tb.fenceQueue
      ++ [i].filter fun j => !decide (j ∈ tb.fenceQueue) && left.claims.hasPendingDrain j := by
  by_cases hin : i ∈ tb.fenceQueue
  · simpa [hin] using h.kept (Or.inr hin)
  · cases hp : left.claims.hasPendingDrain i with
    | true => simpa [hin, hp] using h.appended (Claims.hasPendingDrain_iff_mem.mp hp) hin
    | false =>
      have hnone : ∀ e ∈ left.claims, e.2.holder = i → e.2.pendingDrain = false := by
        intro e he hh
        by_contra hpend
        refine Bool.eq_false_iff.mp hp (Claims.hasPendingDrain_iff_mem.mpr ⟨e, he, hh, ?_⟩)
        simpa using hpend
      simpa [hin, hp] using h.kept (Or.inl hnone)

/-! ### The tick at one initiator (R80 to R82) -/

/-- The record of an initiator after stage 2 of a tick. -/
def InitRecord.leaseTicked (r : InitRecord) : InitRecord :=
  if r.state.runsOut then ⟨.lapsed, r.generation, []⟩ else { r with state := r.state.lowered }

theorem tickLease_of_runsOut {tb : Tables} {i : Initiator} (h : tb.inits[i].state.runsOut = true) :
    tickLease tb i = leaveActive tb i .lapsed := by
  unfold tickLease
  split
  · rename_i lease hst
    rw [hst] at h
    exact if_pos (of_decide_eq_true h)
  all_goals
    rename_i hst
    rw [hst] at h
    cases h

theorem tickLease_of_not_runsOut {tb : Tables} {i : Initiator} (h : tb.inits[i].state.runsOut = false) :
    tickLease tb i = { tb with inits := tb.inits.set i { tb.inits[i] with state := tb.inits[i].state.lowered } } := by
  have hself : ∀ st, tb.inits[i].state = st → tb.inits.set i { tb.inits[i] with state := st } = tb.inits := by
    rintro st rfl
    exact Vector.set_getElem_self _
  unfold tickLease
  split
  · rename_i lease hst
    rw [hst] at h ⊢
    exact if_neg (of_decide_eq_false h)
  all_goals
    rename_i hst
    rw [hst]
    simp only [InitState.lowered]
    rw [hself _ hst]

theorem tickLease_get (tb : Tables) (i j : Initiator) :
    (tickLease tb i).inits[j] = if j = i then tb.inits[i].leaseTicked else tb.inits[j] := by
  cases h : tb.inits[i].state.runsOut with
  | true =>
    rw [tickLease_of_runsOut h, leaveActive, inits_set_get, InitRecord.leaseTicked, if_pos h]
  | false =>
    rw [tickLease_of_not_runsOut h, inits_set_get, InitRecord.leaseTicked, if_neg (Bool.eq_false_iff.mp h)]

/-! ### The ticks at several initiators, one after the other -/

theorem tickLease_queue_sublist (tb : Tables) (i : Initiator) : (tickLease tb i).queue.Sublist tb.queue := by
  rcases tickLease_cases tb i with h | ⟨-, h⟩ <;> rw [h]
  exact List.filter_sublist

theorem tickLeases_queue_sublist (tb : Tables) : (tickLeases tb).queue.Sublist tb.queue :=
  List.foldlRecOn (motive := fun tb' : Tables => tb'.queue.Sublist tb.queue) _ tickLease (List.Sublist.refl _)
    fun tb' h i _ => (tickLease_queue_sublist tb' i).trans h

/-- Each initiator is ticked once, whatever the ticks at the others do. -/
theorem foldl_tickLease_get {l : List Initiator} (hl : l.Nodup) (tb : Tables) (j : Initiator) :
    (l.foldl tickLease tb).inits[j] = if j ∈ l then tb.inits[j].leaseTicked else tb.inits[j] := by
  induction l generalizing tb with
  | nil => simp
  | cons i rest ih =>
    obtain ⟨hi, hrest⟩ := List.nodup_cons.mp hl
    rw [List.foldl_cons, ih hrest, tickLease_get]
    by_cases hji : j = i
    · subst hji
      simp [hi]
    · simp [hji]

theorem tickLeases_get (tb : Tables) (j : Initiator) : (tickLeases tb).inits[j] = tb.inits[j].leaseTicked := by
  rw [tickLeases, foldl_tickLease_get (List.nodup_finRange 8), if_pos (List.mem_finRange j)]

/-- Where no lease ends the ticks change the leases alone. -/
theorem foldl_tickLease_of_none_runsOut {l : List Initiator} (hl : l.Nodup) {tb : Tables}
    (h : ∀ i ∈ l, tb.inits[i].state.runsOut = false) :
    l.foldl tickLease tb = { tb with inits := (l.foldl tickLease tb).inits } := by
  induction l generalizing tb with
  | nil => rfl
  | cons i rest ih =>
    obtain ⟨hi, hrest⟩ := List.nodup_cons.mp hl
    have hhead := tickLease_of_not_runsOut (h i List.mem_cons_self)
    have hafter : ∀ j ∈ rest, (tickLease tb i).inits[j].state.runsOut = false := by
      intro j hj
      have hji : j ≠ i := fun hji => hi (hji ▸ hj)
      rw [tickLease_get, if_neg hji]
      exact h j (List.mem_cons_of_mem i hj)
    rw [List.foldl_cons, ih hrest hafter, hhead]

/-- `left` are the tables after the ticks at the initiators `done`, in this order, but for the initiator table. -/
structure LeasesTicked (tb : Tables) (done : List Initiator) (left : Tables) : Prop where
  queue : left.queue = tb.queue.filter fun v =>
    !(decide (v.initiator ∈ done) && tb.inits[v.initiator].state.runsOut)
  records : ∀ n, left.claims.get n = (tb.claims.get n).bind fun c =>
    if c.holder ∈ done ∧ tb.inits[c.holder].state.runsOut = true then afterDeparture c.holder c else some c
  sorted : left.claims.Sorted
  fences : left.fenceQueue = tb.fenceQueue ++ done.filter fun i =>
    tb.inits[i].state.runsOut && !decide (i ∈ tb.fenceQueue) && left.claims.hasPendingDrain i
  counter : left.ticketCounter = tb.ticketCounter

section

variable {tb left : Tables} {done : List Initiator} {i : Initiator}

theorem LeasesTicked.nil (hs : tb.claims.Sorted) : LeasesTicked tb [] tb where
  queue := by simp
  records n := by simp
  sorted := hs
  fences := by simp
  counter := rfl

/-- One more initiator whose lease does not end. -/
theorem LeasesTicked.lower (h : LeasesTicked tb done left) (hi : tb.inits[i].state.runsOut = false)
    (inits : Vector InitRecord 8) : LeasesTicked tb (done ++ [i]) { left with inits := inits } where
  queue := by
    rw [h.queue]
    refine List.filter_congr fun v _ => ?_
    by_cases hv : v.initiator = i
    · rw [Fin.getElem_fin] at hi
      simp [hv, hi]
    · simp [hv]
  records n := by
    rw [h.records]
    refine Option.bind_congr fun c _ => ?_
    by_cases hc : c.holder = i
    · rw [Fin.getElem_fin] at hi
      simp [hc, hi]
    · simp [hc]
  sorted := h.sorted
  fences := by
    rw [h.fences, List.filter_append, List.filter_singleton, hi]
    simp
  counter := h.counter

/-- One more initiator, which lapses. -/
theorem LeasesTicked.lapse (h : LeasesTicked tb done left) (hnew : i ∉ done)
    (hi : tb.inits[i].state.runsOut = true) :
    LeasesTicked tb (done ++ [i]) (leaveActive left i .lapsed) where
  queue := by
    rw [(leaveActive_departed h.sorted i .lapsed).queue, h.queue, List.filter_filter]
    refine List.filter_congr fun v _ => ?_
    by_cases hv : v.initiator = i
    · rw [Fin.getElem_fin] at hi
      simp [hv, hi]
    · simp [hv]
  records n := by
    rw [(leaveActive_departed h.sorted i .lapsed).records, h.records, Option.bind_assoc]
    refine Option.bind_congr fun c _ => ?_
    by_cases hc : c.holder = i
    · subst hc
      rw [Fin.getElem_fin] at hi
      simp [hnew, hi]
    · simp only [List.mem_append, List.mem_singleton, hc, or_false]
      split
      · cases hd : afterDeparture c.holder c with
        | none => rfl
        | some d => exact afterDeparture_of_holder_ne (afterDeparture_holder hd ▸ hc)
      · exact afterDeparture_of_holder_ne hc
  sorted := (leaveActive_departed h.sorted i .lapsed).sorted
  fences := by
    have hdep := leaveActive_departed h.sorted i .lapsed
    have hin : i ∈ left.fenceQueue ↔ i ∈ tb.fenceQueue := by
      rw [h.fences]
      simp [hnew]
    have hdone : (done.filter fun j =>
        tb.inits[j].state.runsOut && !decide (j ∈ tb.fenceQueue) && left.claims.hasPendingDrain j)
        = done.filter fun j => tb.inits[j].state.runsOut && !decide (j ∈ tb.fenceQueue)
          && (leaveActive left i .lapsed).claims.hasPendingDrain j :=
      List.filter_congr fun j hj => by rw [hdep.hasPendingDrain h.sorted fun hji => hnew (hji ▸ hj)]
    rw [hdep.fenceQueue, List.filter_append, ← List.append_assoc, ← hdone, ← h.fences]
    rw [Fin.getElem_fin] at hi
    simp [List.filter_singleton, hin, hi]
  counter := h.counter

theorem foldl_tickLease_leasesTicked (hs : tb.claims.Sorted) (hdone : done.Nodup) :
    LeasesTicked tb done (done.foldl tickLease tb) := by
  induction done using List.reverseRecOn with
  | nil => exact .nil hs
  | append_singleton done i ih =>
    obtain ⟨hold, -, hdisjoint⟩ := List.nodup_append'.mp hdone
    have hnew : i ∉ done := fun hi => hdisjoint hi List.mem_cons_self
    have hticked := ih hold
    have hsame : (done.foldl tickLease tb).inits[i] = tb.inits[i] := by
      rw [foldl_tickLease_get hold, if_neg hnew]
    rw [List.foldl_append, List.foldl_cons, List.foldl_nil]
    cases hi : tb.inits[i].state.runsOut with
    | true =>
      rw [tickLease_of_runsOut (hsame ▸ hi)]
      exact hticked.lapse hnew hi
    | false =>
      rw [tickLease_of_not_runsOut (hsame ▸ hi)]
      exact hticked.lower hi _

end

/-! ### Both stages of the tick -/

theorem tickExpiry_runsOut (tb : Tables) (i : Initiator) :
    (tickExpiry tb).inits[i].state.runsOut = tb.inits[i].state.runsOut := by
  rw [tickExpiry_get]

theorem tickExpiry_sorted {tb : Tables} (hs : tb.claims.Sorted) : (tickExpiry tb).claims.Sorted :=
  expireWaiters_sorted (tb := { tb with queue := (tb.queue.filter fun w => !w.expires).map Waiter.lower }) hs _

theorem tickLeases_tickExpiry_ticked {tb : Tables} (hs : tb.claims.Sorted) :
    Ticked tb (tickLeases (tickExpiry tb)) := by
  have h : LeasesTicked (tickExpiry tb) (List.finRange 8) (tickLeases (tickExpiry tb)) :=
    foldl_tickLease_leasesTicked (tickExpiry_sorted hs) (List.nodup_finRange 8)
  have hget := tickLeases_get (tickExpiry tb)
  refine ⟨?_, fun n => ?_, h.sorted, fun i hi => ?_, fun i hi => ?_, ?_, ?_⟩
  · rw [h.queue, tickExpiry_queue, List.filter_map, List.filter_filter]
    refine congrArg (List.map Waiter.lower) (List.filter_congr fun v _ => ?_)
    simp only [Function.comp, List.mem_finRange, decide_true, Bool.true_and, tickExpiry_runsOut,
      Waiter.expires_eq_runsOut]
    exact Bool.and_comm _ _
  · rw [h.records, tickExpiry_claims_get]
    simp only [List.mem_finRange, true_and, tickExpiry_runsOut, List.mem_filter, Waiter.expires_eq_runsOut, and_assoc]
  · rw [hget, InitRecord.leaseTicked, tickExpiry_runsOut, if_pos hi, tickExpiry_get]
  · rw [hget, InitRecord.leaseTicked, tickExpiry_runsOut, if_neg (Bool.eq_false_iff.mp hi), tickExpiry_get,
      List.filter_filter]
    simp only [Waiter.expires_eq_runsOut, Bool.and_comm]
    rfl
  · rw [h.fences, tickExpiry_fenceQueue]
    simp only [tickExpiry_runsOut]
    rfl
  · rw [h.counter, tickExpiry_ticketCounter]

end Sys2Proof.Machine

/-! PROOF. The commands of a tick at the directory engine, settled: DIRECTORY_TICK, WAIT_EXPIRY and LAPSE (R57, R80 to
R82, R86, R87). -/

namespace Sys2Proof.Machine

/-! ### The commands -/

theorem takeEngineTick_of_delivered {s : State} (hr : s.inReset = false) (hd : s.dirState ≠ .dormant)
    (ht : s.engineTick = true) : takeEngineTick s = { s with tables := tickTables s.tables, engineTick := false } := by
  simp [takeEngineTick, hr, hd, ht]

/-- A delivered tick, by any of the commands whose event it brings. -/
theorem exec_directoryTick_of_delivered {s : State} (hr : s.inReset = false) (hd : s.dirState ≠ .dormant)
    (ht : s.engineTick = true) :
    exec .directoryTick s = .next { s with tables := tickTables s.tables, engineTick := false } := by
  rw [exec_directoryTick, takeEngineTick_of_delivered hr hd ht]

theorem exec_waitExpiry_of_runsOut {s : State} {v : Waiter} (hv : v ∈ s.tables.queue) (hout : v.runsOut = true) :
    exec (.waitExpiry v.ticket) s = exec .directoryTick s := by
  have hnext : waiterExpiresNext s.tables v.ticket = true :=
    List.any_eq_true.mpr ⟨v, hv, by simp [Waiter.expires_eq_runsOut, hout]⟩
  rw [exec_waitExpiry, exec_directoryTick, if_pos hnext]

theorem exec_lapse_of_runsOut {s : State} {i : Initiator} (hout : s.tables.inits[i].state.runsOut = true) :
    exec (.lapse i) s = exec .directoryTick s := by
  rw [exec_lapse, exec_directoryTick, if_pos (leaseEnds_eq_runsOut s.tables i ▸ hout)]

theorem takeEngineTick_of_dormant {s : State} (hd : s.dirState = .dormant) : takeEngineTick s = s := by
  simp [takeEngineTick, hd]

/-! ### A tick on which nothing runs out -/

theorem Waiter.runsOut_eq_false {v : Waiter} (h : ∀ r, v.remaining = some r → 1 < r) : v.runsOut = false :=
  v.expires_eq_runsOut ▸ Waiter.expires_eq_false.mpr h

theorem InitState.runsOut_eq_false {st : InitState} (h : ∀ l, st = .active l → 1 < l) : st.runsOut = false := by
  cases st with
  | active l => exact decide_eq_false (Nat.not_le.mpr (h l rfl))
  | absent => rfl
  | unregistered => rfl
  | lapsed => rfl

/-- On a tick on which nothing runs out every wait and every lease lowers, and nothing else changes. -/
theorem tickTables_of_none_runsOut {tb : Tables} (hq : ∀ v ∈ tb.queue, v.runsOut = false)
    (hi : ∀ i : Initiator, tb.inits[i].state.runsOut = false) :
    ∃ inits, tickTables tb = { tb with queue := tb.queue.map Waiter.lower, inits := inits }
      ∧ ∀ i : Initiator, inits[i] = { tb.inits[i] with state := tb.inits[i].state.lowered } := by
  have hnot : ¬TickPasses tb := by
    rintro (⟨v, hv, hout⟩ | ⟨i, hout⟩)
    · exact absurd ((hq v hv).symm.trans hout) Bool.false_ne_true
    · exact absurd ((hi i).symm.trans hout) Bool.false_ne_true
  have hexpiry : tickExpiry tb = { tb with queue := tb.queue.map Waiter.lower } :=
    tickExpiry_of_none_expires fun v hv => v.expires_eq_runsOut.trans (hq v hv)
  have hleases := foldl_tickLease_of_none_runsOut (List.nodup_finRange 8)
    (tb := { tb with queue := tb.queue.map Waiter.lower }) fun i _ => hi i
  rw [tickTables_of_not_passes hnot, hexpiry]
  refine ⟨_, hleases, fun i => ?_⟩
  exact (tickLeases_get _ i).trans (if_neg (Bool.eq_false_iff.mp (hi i)))

/-! ### A waiter that expires (R57) -/

section

variable {tb : Tables}

/-- The waiters after a tick were waiters that did not expire, lowered. -/
theorem mem_tickTables_queue {x : Waiter} (hx : x ∈ (tickTables tb).queue) :
    ∃ u ∈ tb.queue, u.runsOut = false ∧ x = u.lower := by
  have hsub : (tickTables tb).queue.Sublist (tickExpiry tb).queue := by
    by_cases h : TickPasses tb
    · rw [tickTables_of_passes h]
      exact (grantPass_queue_sublist _).trans (tickLeases_queue_sublist _)
    · rw [tickTables_of_not_passes h]
      exact tickLeases_queue_sublist _
  have hmem := hsub.subset hx
  rw [tickExpiry_queue, List.mem_map] at hmem
  obtain ⟨u, hu, rfl⟩ := hmem
  obtain ⟨hin, hstays⟩ := List.mem_filter.mp hu
  exact ⟨u, hin, by simpa [Waiter.expires_eq_runsOut] using hstays, rfl⟩

/-- No waiter after a tick has the ticket of one that expired. -/
theorem ticket_ne_of_expired {v : Waiter} (hv : v ∈ tb.queue) (hout : v.runsOut = true)
    (hnodup : (tb.queue.map (·.ticket)).Nodup) {x : Waiter} (hx : x ∈ (tickTables tb).queue) :
    x.ticket ≠ v.ticket := by
  obtain ⟨u, hu, hstays, rfl⟩ := mem_tickTables_queue hx
  intro hticket
  have huv : u = v := List.inj_on_of_nodup_map hnodup hu hv hticket
  rw [huv, hout] at hstays
  cases hstays

/-- A tick appends to the notices of an initiator that does not lapse, the EXPIRED ones first. -/
theorem tickTables_notices_prefix {i : Initiator} (hi : tb.inits[i].state.runsOut = false) :
    tb.inits[i].notices ++ ((tb.queue.filter Waiter.expires).filter fun x => decide (x.initiator = i)).map
      Waiter.expiredNotice <+: (tickTables tb).inits[i].notices := by
  have hticked : (tickLeases (tickExpiry tb)).inits[i].notices = tb.inits[i].notices
      ++ ((tb.queue.filter Waiter.expires).filter fun x => decide (x.initiator = i)).map Waiter.expiredNotice := by
    rw [tickLeases_get, InitRecord.leaseTicked, tickExpiry_runsOut, if_neg (Bool.eq_false_iff.mp hi), tickExpiry_get]
  rw [← hticked]
  by_cases h : TickPasses tb
  · rw [tickTables_of_passes h]
    exact grantPass_notices_prefix _ i
  · rw [tickTables_of_not_passes h]

/-- Where no wait remaining is 0, the waiters of `i` that expire are those with 1 remaining. -/
theorem filter_expires_eq {i : Initiator} (h0 : ∀ x ∈ tb.queue, x.remaining ≠ some 0) :
    ((tb.queue.filter Waiter.expires).filter fun x => decide (x.initiator = i))
      = tb.queue.filter fun x => decide (x.initiator = i ∧ x.remaining = some 1) := by
  rw [List.filter_filter]
  refine List.filter_congr fun x hx => ?_
  have hx0 := h0 x hx
  rw [Bool.decide_and]
  congr 1
  unfold Waiter.expires
  cases hrem : x.remaining with
  | none => simp
  | some r =>
    have hr : r ≠ 0 := by rwa [hrem, ne_eq, Option.some_inj] at hx0
    simp only [Option.some_inj, decide_eq_decide]
    omega

end

/-- Settles O50: the whole tick by its two stages, the tick that only lowers, WAIT_EXPIRY, and DORMANT. -/
theorem directoryTickLowersAndExpires : Obligations.DirectoryTickLowersAndExpires := by
  unfold Obligations.DirectoryTickLowersAndExpires
  refine ⟨fun s hr hd ht hs => ?_, fun s hr hd ht hq hi => ?_, fun s v hr hd ht hv h1 hnodup h0 hi => ?_,
    fun s ticket i c hd hc => ?_⟩
  · exact ⟨_, _, exec_directoryTick_of_delivered hr hd ht, rfl, tickLeases_tickExpiry_ticked hs,
      tickTables_of_passes, tickTables_of_not_passes⟩
  · obtain ⟨inits, htick, hinits⟩ := tickTables_of_none_runsOut (fun v hv => Waiter.runsOut_eq_false (hq v hv))
      fun i => InitState.runsOut_eq_false (hi i)
    refine ⟨_, inits, exec_directoryTick_of_delivered hr hd ht, ?_, hinits⟩
    rw [htick]
    rfl
  · have hout : v.runsOut = true := by simp [Waiter.runsOut, h1]
    have hexec := exec_directoryTick_of_delivered hr hd ht
    refine ⟨_, (exec_waitExpiry_of_runsOut hv hout).trans hexec, hexec, rfl,
      fun x => ticket_ne_of_expired hv hout hnodup, ?_⟩
    have hprefix := tickTables_notices_prefix (InitState.runsOut_eq_false hi)
    rw [filter_expires_eq h0] at hprefix
    exact hprefix
  · exact exec_engineTick_of_unchanged (takeEngineTick_of_dormant hd) hc

/-! ### A lapse (R81, R82) -/

/-- Nothing live, no waiter and no notice of `i` is left, which LAPSED with this generation. -/
structure Revoked (i : Initiator) (generation : BitVec 8) (tb : Tables) (waiters : List Waiter) : Prop where
  records : ∀ e ∈ tb.claims, e.2.holder = i → e.2.live = false
  waiters : ∀ v ∈ waiters, v.initiator ≠ i
  own : tb.inits[i] = ⟨.lapsed, generation, []⟩

theorem Revoked.granted {i : Initiator} {generation : BitVec 8} {tb : Tables} {w : Waiter} {rest : List Waiter}
    {n : ClaimNo} {c : Claim} (h : Revoked i generation tb (w :: rest))
    (hg : grantedRecord tb.claims w = some (n, c)) : Revoked i generation (grantWaiter tb w n c) rest where
  records e he hh := by
    rcases Claims.mem_put he with rfl | he
    · rcases grantedRecord_eq_some.mp hg with ⟨mode, -, -, rfl⟩ | ⟨-, d, hd, rfl⟩
      · exact absurd hh (h.waiters w List.mem_cons_self)
      · exact h.records (n, d) (Claims.mem_of_get hd) hh
    · exact h.records e he hh
  waiters v hv := h.waiters v (List.mem_cons_of_mem w hv)
  own := by
    rw [grantWaiter_inits, appendNotice_get, if_neg (h.waiters w List.mem_cons_self).symm, h.own]

/-- A pass gives nothing back to an initiator without waiters. -/
theorem Revoked.grantPass {i : Initiator} {generation : BitVec 8} {tb : Tables} (h : Revoked i generation tb tb.queue) :
    Revoked i generation (grantPass tb) (grantPass tb).queue := by
  have hpass := grantPass_induction (P := fun tb' rest => Revoked i generation tb' rest)
    (fun tb' w rest h _ => ⟨h.records, fun v hv => h.waiters v (List.mem_cons_of_mem w hv), h.own⟩)
    (fun tb' w rest n c h hj => h.granted (judgeWaiter_eq_some.mp hj).2) tb ⟨h.records, h.waiters, h.own⟩
  exact ⟨hpass.records, fun v hv => h.waiters v ((grantPass_queue_sublist tb).subset hv), hpass.own⟩

/-- A pass leaves a record that no waiter names. -/
theorem grantPass_get_of_not_named {tb : Tables} {n : ClaimNo} {c : Claim} (hget : tb.claims.get n = some c)
    (hnamed : ∀ v ∈ tb.queue, v.ownRecord ≠ some n) : (grantPass tb).claims.get n = some c := by
  refine (grantPass_induction
    (P := fun tb' rest => tb'.claims.get n = some c ∧ ∀ v ∈ rest, v.ownRecord ≠ some n) ?_ ?_ tb ⟨hget, hnamed⟩).1
  · intro tb' w rest ⟨hget, hnamed⟩ _
    exact ⟨hget, fun v hv => hnamed v (List.mem_cons_of_mem w hv)⟩
  · intro tb' w rest m d ⟨hget, hnamed⟩ hj
    refine ⟨?_, fun v hv => hnamed v (List.mem_cons_of_mem w hv)⟩
    rw [grantWaiter_claims, Claims.get_put, if_neg, hget]
    rintro rfl
    rcases grantedRecord_eq_some.mp (judgeWaiter_eq_some.mp hj).2 with ⟨mode, -, hfree, -⟩ | ⟨hk, -⟩
    · exact Option.some_ne_none c (hget.symm.trans (Claims.lowestFree_eq_some.mp hfree).1)
    · exact hnamed w List.mem_cons_self (by simp [Waiter.ownRecord, hk])

/-- No record that an initiator leaves behind is live. -/
theorem afterDeparture_not_live {c d : Claim} (h : afterDeparture c.holder c = some d) : d.live = false := by
  have hholder := afterDeparture_holder h
  rw [← disposeRecord_eq] at h
  exact disposeRecord_not_live h hholder

section

variable {tb left : Tables} {i : Initiator}

/-- What the two stages of a tick make of a record whose holder lapses. -/
theorem Ticked.get_of_lapsed (h : Ticked tb left) (hi : tb.inits[i].state.runsOut = true) {n : ClaimNo} {c : Claim}
    (hget : tb.claims.get n = some c) (hh : c.holder = i) :
    ∃ ticket, left.claims.get n = afterDeparture i { c with upgradeTicket := ticket } := by
  subst hh
  rw [h.records, hget, Option.map_some, Option.bind_some]
  by_cases hnamed : ∃ v ∈ tb.queue, v.runsOut = true ∧ v.ownRecord = some n
  · simp only [if_pos hnamed]
    exact ⟨none, if_pos hi⟩
  · simp only [if_neg hnamed]
    exact ⟨c.upgradeTicket, if_pos hi⟩

theorem Ticked.revoked (h : Ticked tb left) (hi : tb.inits[i].state.runsOut = true) :
    Revoked i tb.inits[i].generation left left.queue where
  records e he hh := by
    have hget := (Claims.get_eq_some_iff h.sorted).mpr he
    rw [h.records, Option.bind_eq_some_iff] at hget
    obtain ⟨c, -, hc⟩ := hget
    have hholder : c.holder = i := by
      split at hc
      · exact (afterDeparture_holder hc).symm.trans hh
      · exact Option.some.inj hc ▸ hh
    subst hholder
    rw [if_pos hi] at hc
    exact afterDeparture_not_live hc
  waiters v hv := by
    rw [h.queue, List.mem_map] at hv
    obtain ⟨u, hu, rfl⟩ := hv
    rintro rfl
    have hstays := (List.mem_filter.mp hu).2
    rw [hi] at hstays
    simp at hstays
  own := h.lapsed i hi

/-- An initiator that lapses with a PENDING drain stands in the fence queue. -/
theorem Ticked.mem_fenceQueue (h : Ticked tb left) (hi : tb.inits[i].state.runsOut = true) {n : ClaimNo} {c : Claim}
    (hget : left.claims.get n = some c) (hh : c.holder = i) (hp : c.pendingDrain = true) : i ∈ left.fenceQueue := by
  have hany : left.claims.hasPendingDrain i = true :=
    Claims.hasPendingDrain_iff_mem.mpr ⟨(n, c), Claims.mem_of_get hget, hh, hp⟩
  rw [h.fences, List.mem_append, List.mem_filter]
  by_cases hin : i ∈ tb.fenceQueue
  · exact Or.inl hin
  · refine Or.inr ⟨List.mem_finRange i, ?_⟩
    rw [hi, decide_eq_false hin]
    exact hany

/-- After a tick a waiter names only what was HELD SHARED. -/
theorem Ticked.not_named (h : Ticked tb left) (hlaw : tb.UpgradeLaw) {n : ClaimNo} {c : Claim}
    (hget : tb.claims.get n = some c) (hc : c.heldShared = false) : ∀ v ∈ left.queue, v.ownRecord ≠ some n := by
  intro v hv hown
  rw [h.queue, List.mem_map] at hv
  obtain ⟨u, hu, rfl⟩ := hv
  obtain ⟨d, hd, hshared, -⟩ := hlaw.1 u (List.mem_filter.mp hu).1 n hown
  rw [hget] at hd
  cases hd
  exact absurd (hc.symm.trans hshared) Bool.false_ne_true

/-- A live record that is not HELD SHARED drains out when its holder lapses, through the pass. -/
theorem Ticked.drains (h : Ticked tb left) (hlaw : tb.UpgradeLaw) (hi : tb.inits[i].state.runsOut = true)
    {n : ClaimNo} {c : Claim} {stage : Stage} (hget : tb.claims.get n = some c) (hh : c.holder = i)
    (hc : c.heldShared = false)
    (hdrain : ∀ ticket, afterDeparture i { c with upgradeTicket := ticket }
      = some { c with phase := .drainingOut stage, upgradeTicket := ticket }) :
    ∃ d, left.claims.get n = some { c with phase := .drainingOut stage, upgradeTicket := d }
      ∧ (grantPass left).claims.get n = some { c with phase := .drainingOut stage, upgradeTicket := d } := by
  obtain ⟨ticket, hleft⟩ := h.get_of_lapsed hi hget hh
  rw [hdrain ticket] at hleft
  exact ⟨ticket, hleft, grantPass_get_of_not_named hleft (h.not_named hlaw hget hc)⟩

end

/-- A tick on which something expires or lapses is a pass over its two stages. -/
theorem exists_ticked_of_passes {tb : Tables} (hs : tb.claims.Sorted) (h : TickPasses tb) :
    ∃ left, Ticked tb left ∧ tickTables tb = grantPass left :=
  ⟨_, tickLeases_tickExpiry_ticked hs, tickTables_of_passes h⟩

/-- Settles O51: the tick of R86 with its pass, read at the initiator that lapses. -/
theorem lapseRevokesEverythingHeld : Obligations.LapseRevokesEverythingHeld := by
  unfold Obligations.LapseRevokesEverythingHeld
  intro s i hr hd ht hlaw hactive
  have hi : s.tables.inits[i].state.runsOut = true := by rw [hactive]; rfl
  have hexec := exec_directoryTick_of_delivered hr hd ht
  obtain ⟨left, hticked, hpass⟩ := exists_ticked_of_passes hlaw.sorted (Or.inr ⟨i, hi⟩)
  obtain ⟨hrecords, hwaiters, hown⟩ := (hticked.revoked hi).grantPass
  rw [hpass] at hexec
  refine ⟨_, left, (exec_lapse_of_runsOut hi).trans hexec, hexec, rfl, hticked, rfl, grantPass_fenceQueue _, hown,
    hwaiters, hrecords, fun n c hget hh => ⟨fun hheld hmode => ?_, fun stage hdown => ?_⟩⟩
  · obtain ⟨d, hleft, hafter⟩ := hticked.drains hlaw.upgrades hi hget hh (stage := .pending)
      (by simp [Claim.heldShared, hmode]) (fun ticket => by simp [afterDeparture, hh, hheld, hmode])
    exact ⟨(grantPass_fenceQueue _).symm ▸ hticked.mem_fenceQueue hi hleft hh rfl, d, hafter⟩
  · obtain ⟨d, -, hafter⟩ := hticked.drains hlaw.upgrades hi hget hh (stage := stage)
      (by simp [Claim.heldShared, hdown]) (fun ticket => by simp [afterDeparture, hh, hdown])
    exact ⟨d, hafter⟩

end Sys2Proof.Machine

/-! PROOF. The step, the release of RESETn, and what happens while it is low (R110, R164, R178, R179); the laws at
reset. -/

namespace Sys2Proof.Machine

/-! ### The step -/

/-- Settles O1, which is the definition of the step on a queue that is not empty. -/
theorem stepRunsFrontCommand : Obligations.StepRunsFrontCommand := by
  unfold Obligations.StepRunsFrontCommand
  intro s c rest h
  rw [step, h]

/-! ### The release of RESETn (R178, R179) -/

theorem exec_resetn (pres : BitVec 2) (autoon mgrall : Bool) (s : State) :
    exec (.resetn pres autoon mgrall) s = .next (releaseReset pres autoon mgrall s) := rfl

theorem exec_resetnAsserted (s : State) : exec .resetnAsserted s = .next (assertReset s) := rfl

theorem resetManagers_eq (present : PresentCount) (mgrall : Bool) : resetManagers present mgrall =
    if mgrall then BitVec.ofNat 8 (2 ^ present.count - 1) else 1 := by
  cases mgrall with
  | false => rfl
  | true => cases present <;> rfl

section

variable (pres : BitVec 2) (autoon mgrall : Bool) (s : State)

/-- After the release every initiator is UNREGISTERED or ABSENT, without notices, and its mailbox IDLE. -/
theorem releaseReset_atn (i : Initiator) : (releaseReset pres autoon mgrall s).atn i = false := by
  rw [Bool.eq_false_iff, ne_eq, State.atn_iff]
  obtain ⟨hnotices, hstate⟩ := (resetTables_empty (presentOf pres)).inits i
  have hmailbox : (releaseReset pres autoon mgrall s).mailboxes[i] = resetMailbox :=
    releaseReset_mailbox pres autoon mgrall s (.initiator i)
  rintro ⟨-, -, hcompletion | ⟨hlist, -⟩ | hlapsed⟩
  · rw [hmailbox] at hcompletion
    exact absurd hcompletion (by decide)
  · exact hlist hnotices
  · rcases hstate with hst | hst <;> exact absurd (hst.symm.trans hlapsed) (by decide)

theorem releaseReset_atnm : (releaseReset pres autoon mgrall s).atnm = false := rfl

end

/-- Settles O3: the fields of the state after the release, and the lines read from them. -/
theorem resetReleaseSetsEveryBlock : Obligations.ResetReleaseSetsEveryBlock := by
  unfold Obligations.ResetReleaseSetsEveryBlock
  intro pres autoon mgrall s
  refine ⟨_, presentOf pres, exec_resetn pres autoon mgrall s, rfl, rfl, releaseReset_mailbox pres autoon mgrall s,
    fun i => ?_, rfl, rfl, rfl, rfl, rfl, rfl, rfl, rfl, rfl, resetTables_inits (presentOf pres), rfl, rfl, rfl, rfl,
    rfl, rfl, rfl, rfl, rfl, ?_, rfl, rfl, releaseReset_atn pres autoon mgrall s,
    releaseReset_atnm pres autoon mgrall s, rfl, rfl⟩
  · simp [releaseReset]
  · rw [← resetManagers_eq]
    rfl

/-! ### RESETn low (R110, R164, R179) -/

theorem State.atn_of_inReset {s : State} (h : s.inReset = true) (i : Initiator) : s.atn i = false := by
  rw [Bool.eq_false_iff, ne_eq, State.atn_iff]
  exact fun hatn => Bool.false_ne_true (hatn.1.symm.trans h)

theorem State.atnm_of_inReset {s : State} (h : s.inReset = true) : s.atnm = false := by
  rw [Bool.eq_false_iff, ne_eq, State.atnm_iff]
  exact fun hatnm => Bool.false_ne_true (hatnm.1.symm.trans h)

section

variable {s : State} (hlow : s.inReset = true)

include hlow

/-- Nothing that needs RESETn high happens. -/
theorem State.not_running (h : s.inReset = false) : False :=
  Bool.false_ne_true (h.symm.trans hlow)

/-- No tick is taken, no issue made, and no time passes. -/
theorem TimeEvent.eq_of_inReset {t : State} (h : TimeEvent s t) : t = s := by
  cases h with
  | engineTick => exact (takeEngineTick_cases s).resolve_right fun h => State.not_running hlow h.1
  | issue => exact (issueFence_cases s).resolve_right fun h => State.not_running hlow h.1
  | fenceTick =>
    exact (takeFenceTick_cases s).resolve_right fun h => State.not_running hlow (fenceTickReady_iff.mp h.1).1
  | periods n hr => exact (State.not_running hlow hr).elim

theorem TimeEvents.eq_of_inReset {t : State} (h : TimeEvents s t) : t = s := by
  induction h with
  | refl => rfl
  | tail _ he ih =>
    subst ih
    exact he.eq_of_inReset hlow

theorem busWrite_of_inReset (who : Initiator) (addr : BitVec 8) (data : Word) :
    busWrite who addr data s = { s with busOut := some ⟨true, none⟩ } :=
  busWrite_refused (.inl hlow)

theorem takeQuery_of_inReset (who : Initiator) (granule : Granule) (kind : AccessKind) :
    takeQuery who granule kind s = { s with verdictOut := none } :=
  if_pos hlow

theorem readManagementWord0_of_inReset (who : Initiator) :
    readManagementWord0 who s = { s with busOut := some ⟨true, none⟩ } := by
  have hnot : ¬s.takesOwnership who = true := fun h => State.not_running hlow (takesOwnership_iff.mp h).1.running
  rw [readManagementWord0, if_neg hnot, State.busRead, if_pos hlow]

end

/-- `t` is `s` but for an error response on the bus or the fall of verdict valid. -/
structure OnlyErrorResponse (s t : State) : Prop where
  frame : t = { s with busOut := t.busOut, verdictOut := t.verdictOut }
  bus : t.busOut = s.busOut ∨ t.busOut = some ⟨true, none⟩
  verdict : t.verdictOut = s.verdictOut ∨ t.verdictOut = none

theorem OnlyErrorResponse.refl (s : State) : OnlyErrorResponse s s := ⟨rfl, .inl rfl, .inl rfl⟩

theorem OnlyErrorResponse.error (s : State) : OnlyErrorResponse s { s with busOut := some ⟨true, none⟩ } :=
  ⟨rfl, .inr rfl, .inl rfl⟩

theorem OnlyErrorResponse.noVerdict (s : State) : OnlyErrorResponse s { s with verdictOut := none } :=
  ⟨rfl, .inl rfl, .inr rfl⟩

/-- While RESETn is low no event but those of RESETn does more. -/
theorem Event.onlyErrorResponse {c : Instr} {s t : State} (hlow : s.inReset = true) (he : Event c s t)
    (hrelease : ∀ p a m, c ≠ .resetn p a m) (hfall : c ≠ .resetnAsserted) : OnlyErrorResponse s t := by
  have hwrite : ∀ who addr data, OnlyErrorResponse s (busWrite who addr data s) := fun who addr data =>
    busWrite_of_inReset hlow who addr data ▸ .error s
  cases he with
  | idle => exact .refl s
  | request _ htakes => exact (State.not_running hlow htakes.running).elim
  | undefined htakes => exact (State.not_running hlow htakes.running).elim
  | undefinedManagement htakes => exact (State.not_running hlow htakes.running).elim
  | managed _ htakes => exact (State.not_running hlow htakes.running).elim
  | control who m data => exact hwrite _ _ _
  | window who addr data => exact hwrite _ _ _
  | config who reg data => exact hwrite _ _ _
  | refusalClear who data => exact hwrite _ _ _
  | read who => exact readManagementWord0_of_inReset hlow who ▸ .error s
  | query who granule kind => exact takeQuery_of_inReset hlow who granule kind ▸ .noVerdict s
  | answer code =>
    have hsame : fenceAnswer code s = s := (fenceAnswer_cases code s).resolve_right fun h =>
      State.not_running hlow (h.elim And.left And.left)
    exact hsame.symm ▸ .refl s
  | expiry =>
    have hsame : expireFenceTimer s = s := (expireFenceTimer_cases s).resolve_right fun h =>
      State.not_running hlow (fenceTickReady_iff.mp h.1).1
    exact hsame.symm ▸ .refl s
  | time h => exact (h.eq_of_inReset hlow).symm ▸ .refl s
  | released p a m => exact absurd rfl (hrelease p a m)
  | fell => exact absurd rfl hfall

/-- Settles O4: the fall of RESETn, and each command while it is low. -/
theorem lowResetAbandonsWorkAndTakesNoEvent : Obligations.LowResetAbandonsWorkAndTakesNoEvent := by
  unfold Obligations.LowResetAbandonsWorkAndTakesNoEvent
  refine ⟨fun s => ?_, fun c s t hlow hrelease hfall hexec => ?_, fun s who m addr reg data c hlow hc => ?_,
    fun s who granule kind hlow => congrArg Host.Outcome.next (takeQuery_of_inReset hlow who granule kind)⟩
  · have hlow : (assertReset s).inReset = true := rfl
    refine ⟨assertReset s, exec_resetnAsserted s, hlow, fun m => ?_, rfl, rfl, State.atn_of_inReset hlow,
      State.atnm_of_inReset hlow, rfl, rfl⟩
    rw [State.assertReset_mailbox]
    rfl
  · obtain ⟨u, hu, he⟩ := exec_event hexec
    obtain rfl := hu.eq_of_inReset hlow
    obtain ⟨hframe, hbus, hverdict⟩ := he.onlyErrorResponse hlow hrelease hfall
    exact ⟨hframe, hbus, hverdict⟩
  · by_cases hown : c = .takeOwnership who
    · rw [hown, exec_takeOwnership, readManagementWord0_of_inReset hlow]
    · have hc' : c ∈ [Instr.submission who m data, .attentionEnableWrite who m data, .flagClear who m data,
          .windowWrite who addr data, .configWrite who reg data, .configRefusalClear who data] := by
        simpa [hown] using hc
      obtain ⟨a, d, hexec, -⟩ := exec_busWrite hc' s
      rw [hexec, busWrite_of_inReset hlow]

end Sys2Proof.Machine

/-! PROOF. The laws hold in the state after RESETN: its tables are empty, its mailboxes IDLE and its counts in their
ranges. -/

namespace Sys2Proof.Machine

/-! ### Empty tables keep every law of the tables -/

section

variable {tb : Tables} (h : tb.Empty)

include h

theorem Tables.Empty.coverage : tb.claims.Coverage := by
  intro n m c d granule hn
  rw [h.claims, Claims.get_nil] at hn
  cases hn

theorem Tables.Empty.allBlocked : AllBlocked tb.claims [] tb.queue := by
  rw [h.queue]
  trivial

theorem Tables.Empty.noDeadlock : tb.NoDeadlock := by
  rw [Tables.NoDeadlock, hasCycle_waitPairs_eq_false_iff, h.queue]
  rintro ⟨i, hcycle⟩
  obtain ⟨j, hwaits, -⟩ := Relation.TransGen.head'_iff.mp hcycle
  obtain ⟨-, before, w, after, hq, -⟩ := hwaits
  exact absurd hq.symm (List.append_ne_nil_of_right_ne_nil before (List.cons_ne_nil w after))

end

/-! ### The state after the release of RESETn -/

section

variable (pres : BitVec 2) (autoon mgrall : Bool) (s : State)

theorem releaseReset_empty : (releaseReset pres autoon mgrall s).tables.Empty :=
  resetTables_empty (presentOf pres)

theorem releaseReset_offLaw : (releaseReset pres autoon mgrall s).OffLaw :=
  State.offLaw_iff.mpr fun _ => ⟨releaseReset_empty pres autoon mgrall s, rfl⟩

theorem releaseReset_timeLaw : (releaseReset pres autoon mgrall s).TimeLaw := by
  obtain ⟨hleases, hwaits⟩ := Tables.TimeLaw.empty (releaseReset_empty pres autoon mgrall s)
  have htick : 1 ≤ 1000 ∧ 1000 ≤ 65535 := by decide
  have hlimit : 1 ≤ 50 ∧ 50 ≤ 255 := by decide
  exact ⟨htick, htick, htick, hleases, hwaits, hlimit, nofun, nofun⟩

theorem releaseReset_flagLaw : (releaseReset pres autoon mgrall s).FlagLaw := by
  intro m
  rw [releaseReset_mailbox]
  exact ⟨nofun, rfl⟩

theorem releaseReset_dormantLaw : (releaseReset pres autoon mgrall s).DormantLaw := by
  refine .of_not_dormant ?_
  cases autoon <;> exact nofun

theorem releaseReset_allLaws : (releaseReset pres autoon mgrall s).AllLaws := by
  have hempty := releaseReset_empty pres autoon mgrall s
  have hoff := releaseReset_offLaw pres autoon mgrall s
  have hfences := FenceTablesLaw.empty hempty
  have hcounter : (1 : Ticket) ≠ 0 := by decide
  exact ⟨.empty hempty hcounter, hempty.coverage, State.limitLaw_iff.mpr ⟨hoff, .empty hempty _⟩, hempty.allBlocked,
    hempty.noDeadlock, Tables.idleLaw_iff.mpr (.empty hempty),
    State.fenceLaws_iff.mpr ⟨hfences.sorted, fun _ => hfences⟩, hoff,
    releaseReset_dormantLaw pres autoon mgrall s, releaseReset_flagLaw pres autoon mgrall s,
    resetTables_presentLaw s pres autoon mgrall, resetManagers_zero _ _, releaseReset_timeLaw pres autoon mgrall s⟩

end

/-- The state of the model at its start is the one after RESETN with the straps low. -/
theorem releaseReset_reset : releaseReset 0 false false State.reset = State.reset := rfl

/-- Settles O53: the laws in the state after RESETN, of which `State.reset` is one. -/
theorem lawsHoldAtReset : Obligations.LawsHoldAtReset := by
  unfold Obligations.LawsHoldAtReset
  refine ⟨releaseReset_reset ▸ releaseReset_allLaws 0 false false State.reset, fun pres autoon mgrall s t h => ?_⟩
  rw [exec_resetn] at h
  cases h
  exact releaseReset_allLaws pres autoon mgrall s

end Sys2Proof.Machine
